-- ==== Sys2Proof/Word.lean ====
section
/-! DEFINITION. The word types of the RT/QD block (00_scope.md R10, R12; 10_state.md R20, R29). -/

namespace Sys2Proof

/-- An 8-bit register, frame or sensor address (00_scope.md R6: FRAME_BITS, HIST_BITS, ACC_BITS, SENS_ADDR_BITS). -/
abbrev Byte := BitVec 8

/-- A level of a line, or one bit on the wire: `true` is 1 (high), `false` is 0 (low) (00_scope.md R12). -/
abbrev Level := Bool

/-- A phase pair: bit 1 is the line-A bit, bit 0 the line-B bit (41_quadrature_decoder.md R163). -/
abbrev Pair := BitVec 2

/-- A transition pattern, previous pair then current pair (30_encoding.md R103). -/
abbrev Pattern := BitVec 4

end Sys2Proof
end

