-- ==== Sys2Proof/Syntax.lean ====
section
/-! DEFINITION. The six operations (30_encoding.md R90), one constructor per row of the opcode table, and the words of
the three formats by which they reach the block (30_encoding.md R100, R101, R102). -/

namespace Sys2Proof

/-- An operation. The CMD operations carry the whole low 16 bits of their word, ignored bits too, since acceptance
latches all of them (40_register_transport.md R123; 30_encoding.md R100, R105). -/
inductive Instr where
  | sync (addr wdata : Byte)    -- SYNC, R150: both fields are ignored by the operation
  | read (addr wdata : Byte)    -- READ, R130: `wdata` is ignored by the operation
  | write (addr wdata : Byte)   -- WRITE, R140
  | edgeA                       -- EDGE_A, R161: no operand (R98)
  | edgeB                       -- EDGE_B, R162: no operand (R98)
  | drain                       -- DRAIN, R190: no operand
deriving DecidableEq, Repr

/-- A word on one of the three input ports. -/
inductive PortWord where
  | cmd (w : BitVec 18)   -- the CMD word, presented with CMD_VALID (30_encoding.md R100)
  | evt (w : BitVec 2)    -- the event code (30_encoding.md R101)
  | drn (w : BitVec 1)    -- the drain strobe (30_encoding.md R102)
deriving DecidableEq, Repr

/-- Why a port word names no operation. -/
inductive Reject where
  | reservedOp   -- OP = 11 (30_encoding.md R104)
  | noEvent      -- EVT = 00 (30_encoding.md R101)
  | noStrobe     -- DRN = 0 (30_encoding.md R102)
deriving DecidableEq, Repr

end Sys2Proof
end

