-- ==== Sys2Proof/WellFormed.lean ====
section
/-! DEFINITION. Which operations and which port words are well formed (30_encoding.md R100 to R105). -/

namespace Sys2Proof

/-- Every operation with every operand is well formed: "There is no illegal address and no illegal data byte"
(30_encoding.md R105). -/
def Instr.wellFormed : Instr → Bool
  | .sync _ _ => true
  | .read _ _ => true
  | .write _ _ => true
  | .edgeA => true
  | .edgeB => true
  | .drain => true

/-- The canonical encoding has every ignored bit zero (30_encoding.md R100). -/
def Instr.canonical : Instr → Bool
  | .sync addr wdata => addr == 0 && wdata == 0
  | .read _ wdata => wdata == 0
  | .write _ _ => true
  | .edgeA => true
  | .edgeB => true
  | .drain => true

/-- The port words that ask for an operation: OP is not reserved (30_encoding.md R104), the event code names a line
(R101), the strobe is 1 (R102). -/
def PortWord.wellFormed : PortWord → Bool
  | .cmd w => w.extractLsb' 16 2 != 3
  | .evt w => w != 0
  | .drn w => w != 0

/-- An operation of the two edge handlers. -/
def Instr.isEdge : Instr → Bool
  | .edgeA => true
  | .edgeB => true
  | .drain => false
  | .sync _ _ => false
  | .read _ _ => false
  | .write _ _ => false

/-- An operation that acts on decoder state: an edge or a drain (20_memory.md R77). -/
def Instr.onDecoder : Instr → Bool
  | .edgeA => true
  | .edgeB => true
  | .drain => true
  | .sync _ _ => false
  | .read _ _ => false
  | .write _ _ => false

end Sys2Proof
end

