-- ==== Sys2Proof/Decode.lean ====
section
/-! DEFINITION. The decoder of the three port formats and the encoder (30_encoding.md R100 to R104). -/

namespace Sys2Proof

/-- CMD[17:16], CMD[15:8] and CMD[7:0] (30_encoding.md R100). -/
def cmdOp (w : BitVec 18) : BitVec 2 := w.extractLsb' 16 2
@[inherit_doc cmdOp] def cmdAddr (w : BitVec 18) : Byte := w.extractLsb' 8 8
@[inherit_doc cmdOp] def cmdData (w : BitVec 18) : Byte := w.extractLsb' 0 8

/-- The code of each transport operation in OP (30_encoding.md R100). -/
def opSync : BitVec 2 := 0b00
@[inherit_doc opSync] def opRead : BitVec 2 := 0b01
@[inherit_doc opSync] def opWrite : BitVec 2 := 0b10

/-- The transport operation a CMD word asks for; OP = 11 is reserved (30_encoding.md R100, R104). -/
def decodeCmd (w : BitVec 18) : Except Reject Instr :=
  if cmdOp w = opSync then .ok (.sync (cmdAddr w) (cmdData w))
  else if cmdOp w = opRead then .ok (.read (cmdAddr w) (cmdData w))
  else if cmdOp w = opWrite then .ok (.write (cmdAddr w) (cmdData w))
  else .error .reservedOp

/-- The operations an event code asks for, line A listed first; the list says nothing of the order in which the two
operations of code 11 are performed (30_encoding.md R101; 60_exceptions.md R215). -/
def eventOps (evt : BitVec 2) : List Instr :=
  (if evt.getLsbD 1 then [.edgeA] else []) ++ (if evt.getLsbD 0 then [.edgeB] else [])

/-- The operation the drain strobe asks for (30_encoding.md R102). -/
def drainOps (drn : BitVec 1) : List Instr :=
  if drn.getLsbD 0 then [.drain] else []

/-- The operations a port word asks for, or why it asks for none. -/
def decode : PortWord → Except Reject (List Instr)
  | .cmd w => (decodeCmd w).map fun i => [i]
  | .evt w => if w = 0 then .error .noEvent else .ok (eventOps w)
  | .drn w => if w = 0 then .error .noStrobe else .ok (drainOps w)

/-- The CMD word of an OP code, an address and a data byte: OP above ADDR above WDATA (30_encoding.md R100). -/
def cmdWord (op : BitVec 2) (addr wdata : Byte) : BitVec 18 := op ++ addr ++ wdata

/-- The word of an operation on its port (30_encoding.md R100, R101, R102). Ignored bits are written as the operation
carries them; the event code of one line has the other line's bit 0. -/
def encode : Instr → PortWord
  | .sync addr wdata => .cmd (cmdWord opSync addr wdata)
  | .read addr wdata => .cmd (cmdWord opRead addr wdata)
  | .write addr wdata => .cmd (cmdWord opWrite addr wdata)
  | .edgeA => .evt 0b10
  | .edgeB => .evt 0b01
  | .drain => .drn 1

/-- The port word of a table word of `nbits` bits. The three formats have 18, 2 and 1 bits (30_encoding.md R100, R101,
R102), so in whole bytes 24, 8 and 8: a word of one whole byte is read as an event code, and DRAIN's word is reached
as a word of its own width, one bit. Bits above a port's width do not exist on the port. Log entry 5. -/
def tableWord (nbits w : Nat) : Option PortWord :=
  if nbits = 1 then some (.drn (BitVec.ofNat 1 w))
  else if 2 ≤ nbits ∧ nbits ≤ 8 then some (.evt (BitVec.ofNat 2 w))
  else if 18 ≤ nbits ∧ nbits ≤ 32 then some (.cmd (BitVec.ofNat 18 w))
  else none

/-- The first operation the decoder reads from a table word. -/
def decodeTableWord (nbits w : Nat) : Option Instr :=
  match tableWord nbits w with
  | none => none
  | some p =>
    match decode p with
    | .ok (i :: _) => some i
    | .ok [] => none
    | .error _ => none

end Sys2Proof
end

