-- ==== Sys2Proof/Config.lean ====
section
/-! DEFINITION. What an implementation fixes (00_scope.md R6) and the free values the spec leaves open. Each constant
without a body is one no proof can see the value of: log entries 3, 4, 10, 14, 16. -/

namespace Sys2Proof

/-- The named waits of the transport and of the start-up order (00_scope.md R6; 40_register_transport.md R127). -/
inductive Delay where
  | aSetup    -- T_A_SETUP, READ address slot, before the bit is driven
  | aHold     -- T_A_HOLD, READ address slot, between data and rising clock
  | rSetup    -- T_R_SETUP, READ response slot, between clock low and the sample
  | wPre      -- T_W_PRE, WRITE slot, before the bit is driven
  | wPost     -- T_W_POST, WRITE slot, after the rising clock
  | idle      -- T_IDLE, before chip-select is de-asserted
  | sync      -- T_SYNC, between chip-select low and high
  | powerup   -- T_POWERUP, between enabling the sensor module and the first SYNC
deriving DecidableEq, Repr

namespace Config

/-- The least duration of each named wait, in the spec's unnamed unit: OPEN (00_scope.md R6; 93 U8). No rule reads it. -/
opaque duration : Delay → Nat

/-- The `n`th level of the data line that the environment supplies and the model's sample queue does not name:
a free value (20_memory.md R68; 93 U1, U2). -/
opaque sampleBit : Nat → Level

/-- The `n`th choice of which of several operations due in one instant is performed first: a free value
(60_exceptions.md R215; 93 U7). It is read modulo the number of operations due. -/
opaque dueOrder : Nat → Nat

/-- The `n`th value of RDATA used in an accumulation while no RDATA is valid: a free value, since the spec gives RDATA
no value there (10_state.md R22, R39; 93 U12). Log entry 16. -/
opaque unreadRdata : Nat → Byte

/-- The sensor registers the spec names and gives no number for (20_memory.md R61; 93 U9): OPEN, and not assumed
distinct from one another. -/
opaque addrDeltaX : Byte
@[inherit_doc addrDeltaX] opaque addrDeltaY : Byte
@[inherit_doc addrDeltaX] opaque addrProductId : Byte
@[inherit_doc addrDeltaX] opaque addrRevisionId : Byte
@[inherit_doc addrDeltaX] opaque addrReset : Byte
@[inherit_doc addrDeltaX] opaque addrMouseControl : Byte

/-- The lines of the SensorHandle and of the encoder: OPEN, fixed at construction (00_scope.md R6; 40 R120). -/
opaque pinData : Nat
@[inherit_doc pinData] opaque pinClk : Nat
@[inherit_doc pinData] opaque pinCs : Nat
@[inherit_doc pinData] opaque pinPhA : Nat
@[inherit_doc pinData] opaque pinPhB : Nat

/-- HOSTW, the width a READ result is sign-extended to: 32 by the spec's decision D14 (00_scope.md R6). No rule and no
statement of this model rests on it (91 N18). -/
def hostWidth : Nat := 32

end Config

end Sys2Proof
end

