-- ==== Sys2Proof/Machine/State.lean ====
section
/-! DEFINITION. The state of the block and of its surroundings as plain data, the reasons a step can stop, and reset
(10_state.md; 70_reset_and_hazards.md R240). -/

namespace Sys2Proof.Machine

/-- The position of the transport sequencer: idle, or the operation in progress and the index of its next micro-step
(10_state.md R26). -/
inductive SeqPos where
  | idle
  | sync (k : Fin 3)
  | read (k : Fin 78)
  | write (k : Fin 85)
deriving DecidableEq, Repr

/-- A companion step of the main loop on the Motion Accumulator (42_host_operations.md R194, R196). -/
inductive HostStep where
  | addY     -- MY <- wrap8(MY + RDATA)
  | subX     -- MX <- wrap8(MX - RDATA)
  | mdrain   -- deliver (MX, MY) and clear both
deriving DecidableEq, Repr

/-- What arrives from outside at one step (00_scope.md R8). `tick` is an instant in which nothing arrives. -/
inductive Input where
  | tick
  | command (cmd : BitVec 18)                    -- CMD with CMD_VALID = 1 (30_encoding.md R100)
  | ports (evt : BitVec 2) (drn : BitVec 1)      -- EVT and DRN in one instant (R101, R102)
  | host (h : HostStep)
deriving DecidableEq, Repr

/-- An entry of the pin trace: a pin latch write, or a sample with its value (40_register_transport.md R156). -/
inductive PinEvent where
  | ncs (v : Level)
  | sclk (v : Level)
  | sdioOut (v : Level)
  | sdioOe (v : Level)
  | sample (v : Level)
deriving DecidableEq, Repr

/-- The Register Transport: pin latches (10_state.md R29), sequencer (R26), command latch (R31), result register (R21). -/
structure Transport where
  ncs : Level
  sclk : Level
  sdioOut : Level
  sdioOe : Level
  seq : SeqPos
  op : BitVec 2
  addr : Byte
  wdata : Byte
  sr : Byte
  /-- `RDATA` is valid: from the end of a READ until the next READ begins (10_state.md R22). DEDUCED, log entry 2. -/
  rdataValid : Bool
deriving DecidableEq, Repr

/-- The Quadrature Decoder: history and scroll accumulators (10_state.md R23, R24, R25). -/
structure Decoder where
  hist : Byte
  vscroll : Byte
  hscroll : Byte
deriving DecidableEq, Repr

/-- The Motion Accumulator, host-side companion state (10_state.md R35). -/
structure Motion where
  mx : Byte
  my : Byte
deriving DecidableEq, Repr

/-- The MODEL's own account of the outside: what arrives at each step, the levels the sensor will put on the data
line, and how many free values of each kind have been drawn. DESIGN CHOICE, log entries 3, 4, 5, 16. -/
structure Environment where
  inputs : List Input
  samples : List Level
  sampleNo : Nat
  orderNo : Nat
  unreadNo : Nat
deriving DecidableEq, Repr

/-- The MODEL's own record of what the block has shown the outside, oldest first: the pin trace
(40_register_transport.md R156) and the values delivered by READ (R125), DRAIN (42 R190) and MDRAIN (42 R196).
DESIGN CHOICE, log entry 11. -/
structure Observed where
  trace : List PinEvent
  rdata : List Int
  scroll : List (Int × Int)
  motion : List (Int × Int)
deriving DecidableEq, Repr

/-- The machine, partitioned by writer as the spec partitions it (20_memory.md R74; 60_exceptions.md R219). -/
structure State where
  rt : Transport
  qd : Decoder
  motion : Motion
  env : Environment
  obs : Observed
deriving DecidableEq, Repr

/-- The reasons a step ends in a fault: none. "There is no fault outcome, no trap and no error code anywhere in the
block" (00_scope.md R9); the table of cause codes is empty (60_exceptions.md R210). -/
inductive Fault where
deriving DecidableEq, Repr

/-- The reasons a step is refused. -/
inductive Refusal where
  /-- Raised by an arm of `exec` whose instruction has no meaning yet; no arm does. Safe: the model stops. -/
  | notModelled (mnemonic : String)
  /-- Raised by `execHostStep` for a companion step at an instant at which a transport operation is in progress: HOST is
  blocked then, so the spec has no such step (00_scope.md R7; 40 R122). Safe: the model stops. Log entry 9. -/
  | hostBlocked
deriving DecidableEq, Repr

/-- The transport after reset (10_state.md R36). `op`, `addr`, `wdata` and `sr` are unspecified there: DESIGN CHOICE,
log entry 1. -/
def Transport.reset : Transport where
  ncs := true
  sclk := true
  sdioOut := false
  sdioOe := false
  seq := .idle
  op := 0
  addr := 0
  wdata := 0
  sr := 0
  rdataValid := false

/-- The machine after reset (70_reset_and_hazards.md R240), with nothing presented to it and nothing shown yet. -/
def State.reset : State where
  rt := Transport.reset
  qd := { hist := 0x00, vscroll := 0, hscroll := 0 }
  motion := { mx := 0, my := 0 }
  env := { inputs := [], samples := [], sampleNo := 0, orderNo := 0, unreadNo := 0 }
  obs := { trace := [], rdata := [], scroll := [], motion := [] }

end Sys2Proof.Machine
end

