-- ==== Sys2Proof/Machine/Operands.lean ====
section
/-! DEFINITION. Signed readings, bit selection and the fields of HIST: every operand form of the block
(00_scope.md R11; 30_encoding.md R95, R96, R97, R98). -/

namespace Sys2Proof.Machine

/-- The integer an 8-bit pattern stands for (00_scope.md R11; 40_register_transport.md R132). -/
def s8 (p : Byte) : Int :=
  if p.toNat < 128 then p.toNat else (p.toNat : Int) - 256

/-- The 8-bit pattern of an integer, modulo 256 (00_scope.md R11). -/
def u8 (n : Int) : Byte := BitVec.ofInt 8 n

/-- Two's-complement wrap-around into -128..127 (00_scope.md R11). -/
def wrap8 (n : Int) : Int := s8 (u8 n)

/-- Sign extension and zero extension of a byte to `n` bits (00_scope.md R11). -/
def sext (n : Nat) (p : Byte) : BitVec n := p.signExtend n
@[inherit_doc sext] def zext (n : Nat) (p : Byte) : BitVec n := p.setWidth n

/-- The bit numbers of a frame in the order of its slots, most-significant first (20_memory.md R64; 30_encoding.md R95). -/
def msbFirst : List (Fin 8) := [7, 6, 5, 4, 3, 2, 1, 0]

/-- The bit a slot drives: bit `i` of the latched byte, unchanged (30_encoding.md R95). -/
def bitOf (b : Byte) (i : Fin 8) : Level := b.getLsbD i.val

/-- A byte as the bits of one frame, first slot first (20_memory.md R64). -/
def frameBits (b : Byte) : List Level := msbFirst.map (bitOf b)

/-- One response shift: the sample enters at bit 0 and the former bit 7 is dropped (40_register_transport.md R131). -/
def shiftBit (sr : Byte) (s : Level) : Byte := (sr <<< 1) ||| (BitVec.ofBool s).setWidth 8

/-- The byte that bits shift in, first bit first (20_memory.md R69; 30_encoding.md R96). -/
def byteOfBits (bits : List Level) : Byte := bits.foldl shiftBit 0

/-- The current pair, HIST[1:0] (10_state.md R23). -/
def currentPair (hist : Byte) : Pair := hist.extractLsb' 0 2

/-- The previous pair, HIST[3:2] (10_state.md R23). -/
def previousPair (hist : Byte) : Pair := hist.extractLsb' 2 2

/-- The pattern a handler classifies, HIST[3:0] (30_encoding.md R103). -/
def patternOf (hist : Byte) : Pattern := hist.extractLsb' 0 4

/-- HIST shifted left by 2 with a new pair merged in (41_quadrature_decoder.md R161, R164). -/
def shiftPair (hist : Byte) (new : Pair) : Byte := (hist <<< 2) ||| new.setWidth 8

/-- The flip masks: each handler flips its own line's bit of the current pair (30_encoding.md R98; 41 R163). -/
def maskA : Pair := 0b10
@[inherit_doc maskA] def maskB : Pair := 0b01

end Sys2Proof.Machine
end

