-- ==== Sys2Proof/Machine/Flags.lean ====
section
/-! DEFINITION. The block has no condition code and no error flag; its one status bit BUSY and the outputs RDATA and
SDIO_LINE are functions of the state (10_state.md R22, R28, R30). -/

namespace Sys2Proof.Machine

/-- BUSY: SEQ is not IDLE (10_state.md R28). -/
def State.busy (s : State) : Bool := s.rt.seq != .idle

/-- RDATA, while it is valid (10_state.md R22). -/
def State.rdata (s : State) : Option Int := if s.rt.rdataValid then some (s8 s.rt.sr) else none

/-- The level the environment puts on the data line next: the next level the sensor is said to supply, else a free
value (20_memory.md R68). -/
def Environment.level (e : Environment) : Level :=
  match e.samples with
  | b :: _ => b
  | [] => Config.sampleBit e.sampleNo

/-- SDIO_LINE, the level on the data wire: the block's own in output mode, else the environment's (10_state.md R30). -/
def State.sdioLine (s : State) : Level := if s.rt.sdioOe then s.rt.sdioOut else s.env.level

end Sys2Proof.Machine
end

