-- ==== Sys2Proof/Machine/Ops.lean ====
section
/-! DEFINITION. The named operations over registers, pins and the environment. There is no operation that takes an
exception or returns from one: the block raises none, a handler's entry saves nothing and its end restores nothing
(60_exceptions.md R210, R217, R218). There is no memory operation: the sensor's registers are outside the block
(10_state.md R33). -/

namespace Sys2Proof.Machine

/-- Record one entry of the pin trace (40_register_transport.md R156). -/
def State.log (s : State) (e : PinEvent) : State :=
  { s with obs := { s.obs with trace := s.obs.trace ++ [e] } }

/-- `NCS <- v` (00_scope.md R12; 10_state.md R29). -/
def State.setNcs (s : State) (v : Level) : State := { s.log (.ncs v) with rt := { s.rt with ncs := v } }

/-- `SCLK <- v`. -/
def State.setSclk (s : State) (v : Level) : State := { s.log (.sclk v) with rt := { s.rt with sclk := v } }

/-- `SDIO_OUT <- v`. -/
def State.setSdioOut (s : State) (v : Level) : State :=
  { s.log (.sdioOut v) with rt := { s.rt with sdioOut := v } }

/-- `SDIO_OE <- v`. -/
def State.setSdioOe (s : State) (v : Level) : State := { s.log (.sdioOe v) with rt := { s.rt with sdioOe := v } }

/-- `SR <- v` (10_state.md R21). -/
def State.setSr (s : State) (v : Byte) : State := { s with rt := { s.rt with sr := v } }

/-- `SEQ <- q` (10_state.md R26). -/
def State.setSeq (s : State) (q : SeqPos) : State := { s with rt := { s.rt with seq := q } }

/-- The environment after the sample it supplies has been taken. -/
def Environment.taken (e : Environment) : Environment :=
  match e.samples with
  | _ :: rest => { e with samples := rest }
  | [] => { e with sampleNo := e.sampleNo + 1 }

/-- `s <- sample(); SR <- ((SR << 1) & 0xFF) | s` (40_register_transport.md R130, R131). In output mode the line carries
the block's own level and the environment supplies nothing (10_state.md R30); no READ samples in output mode. -/
def State.sampleShift (s : State) : State :=
  { (s.log (.sample s.sdioLine)).setSr (shiftBit s.rt.sr s.sdioLine) with
    env := if s.rt.sdioOe then s.env else s.env.taken }

/-- A READ delivers RDATA, and RDATA is valid from then on (40_register_transport.md R125; 10_state.md R22). -/
def State.deliverRdata (s : State) : State :=
  { s with
    rt := { s.rt with rdataValid := true }
    obs := { s.obs with rdata := s.obs.rdata ++ [s8 s.rt.sr] } }

/-- Acceptance of a command: the three fields are latched together and SEQ stands at the first micro-step. RDATA stays
valid unless a READ begins (40_register_transport.md R123; 10_state.md R22, R31). -/
def State.latch (s : State) (op : BitVec 2) (addr wdata : Byte) (q : SeqPos) (valid : Bool) : State :=
  { s with rt := { s.rt with op := op, addr := addr, wdata := wdata, seq := q, rdataValid := valid } }

/-- Presentation of a command: accepted when BUSY = 0; while BUSY = 1 it is turned away, nothing is latched and the
operation in progress is not disturbed (40_register_transport.md R123, R124). -/
def State.present (s : State) (op : BitVec 2) (addr wdata : Byte) (q : SeqPos) (valid : Bool) : State :=
  if s.busy then s else s.latch op addr wdata q valid

/-- What a handler does with its counter (30_encoding.md R103). -/
inductive Count where
  | up
  | down
  | hold
deriving DecidableEq, Repr

/-- The signed step of a classification. -/
def Count.delta : Count → Int
  | .up => 1
  | .down => -1
  | .hold => 0

/-- The transition tables of the two handlers (30_encoding.md R103; 41_quadrature_decoder.md R161, R162). -/
def classifyA (pat : Pattern) : Count :=
  if pat = 0b0010 ∨ pat = 0b1101 then .up
  else if pat = 0b0111 ∨ pat = 0b1000 then .down
  else .hold

@[inherit_doc classifyA] def classifyB (pat : Pattern) : Count :=
  if pat = 0b1011 ∨ pat = 0b0100 then .up
  else if pat = 0b1110 ∨ pat = 0b0001 then .down
  else .hold

/-- A signed 8-bit counter stepped by `n`, with wrap-around (10_state.md R24; 42_host_operations.md R201). -/
def stepCounter (c : Byte) (n : Int) : Byte := u8 (s8 c + n)

/-- A scroll or motion counter after a classification: an addition of plus or minus one, or none. -/
def countStep (c : Byte) (k : Count) : Byte := stepCounter c k.delta

/-- One run of a handler: flip this line's bit of the current pair, shift it into HIST, classify the pattern of the new
HIST and step VSCROLL (41_quadrature_decoder.md R161, R162). -/
def State.edge (s : State) (mask : Pair) (classify : Pattern → Count) : State :=
  let hist := shiftPair s.qd.hist (currentPair s.qd.hist ^^^ mask)
  { s with qd := { s.qd with hist := hist, vscroll := countStep s.qd.vscroll (classify (patternOf hist)) } }

/-- Read both scroll accumulators, clear both and deliver the pair read (42_host_operations.md R190). -/
def State.drainScroll (s : State) : State :=
  { s with
    qd := { s.qd with vscroll := 0, hscroll := 0 }
    obs := { s.obs with scroll := s.obs.scroll ++ [(s8 s.qd.vscroll, s8 s.qd.hscroll)] } }

/-- `MY <- wrap8(MY + n)` (42_host_operations.md R194). -/
def State.addMy (s : State) (n : Int) : State := { s with motion := { s.motion with my := stepCounter s.motion.my n } }

/-- `MX <- wrap8(MX - n)` (42_host_operations.md R194). -/
def State.subMx (s : State) (n : Int) : State :=
  { s with motion := { s.motion with mx := stepCounter s.motion.mx (-n) } }

/-- Read MX and MY, clear both and deliver the pair read (42_host_operations.md R196). -/
def State.drainMotion (s : State) : State :=
  { s with
    motion := { mx := 0, my := 0 }
    obs := { s.obs with motion := s.obs.motion ++ [(s8 s.motion.mx, s8 s.motion.my)] } }

/-- Replace the inputs still to come. -/
def State.withInputs (s : State) (l : List Input) : State := { s with env := { s.env with inputs := l } }

/-- Draw one free order choice. -/
def State.drawOrder (s : State) : State := { s with env := { s.env with orderNo := s.env.orderNo + 1 } }

/-- Draw one free value of an unread RDATA. -/
def State.drawUnread (s : State) : State := { s with env := { s.env with unreadNo := s.env.unreadNo + 1 } }

end Sys2Proof.Machine
end

