-- ==== Sys2Proof/Machine/Sequencer.lean ====
section
/-! DEFINITION. The transport sequencer: the micro-step lists of SYNC, READ and WRITE and the performance of one
micro-step (40_register_transport.md R121, R130, R140, R150). -/

namespace Sys2Proof.Machine

/-- A micro-step (40_register_transport.md R121). The two closing forms are one pin write each, with what the spec puts
in the same micro-step; SEQ is moved by `microStep`. -/
inductive MicroStep where
  | select                  -- NCS <- 0
  | release                 -- NCS <- 1
  | releaseDeliver          -- NCS <- 1; deliver RDATA
  | clockLow                -- SCLK <- 0
  | clockHigh               -- SCLK <- 1
  | outputMode              -- SDIO_OE <- 1
  | turnaround              -- SDIO_OE <- 0; SR <- 0x00
  | driveAddr (i : Fin 8)   -- SDIO_OUT <- ADDR[i]
  | driveData (i : Fin 8)   -- SDIO_OUT <- WDATA[i]
  | sampleShift             -- s <- sample(); SR <- ((SR << 1) & 0xFF) | s
  | wait (t : Delay)        -- wait(T)
deriving DecidableEq, Repr

/-- A READ's address slot, for bit `i` of ADDR (30_encoding.md R94; 40 R130). -/
def addressSlot (i : Fin 8) : List MicroStep :=
  [.clockLow, .wait .aSetup, .driveAddr i, .wait .aHold, .clockHigh]

/-- A READ's response slot; the bit number does not enter it (30_encoding.md R94; 40 R130). -/
def responseSlot (_ : Fin 8) : List MicroStep :=
  [.clockLow, .wait .rSetup, .sampleShift, .clockHigh]

/-- A WRITE slot, given the micro-step that drives its bit (30_encoding.md R94; 40 R140). -/
def writeSlot (drive : MicroStep) : List MicroStep :=
  [.clockLow, .wait .wPre, drive, .clockHigh, .wait .wPost]

/-- The opening of READ and WRITE (40_register_transport.md R130, R140, micro-steps 0 to 2). -/
def opening : List MicroStep := [.select, .clockLow, .outputMode]

/-- SYNC (40_register_transport.md R150). -/
def syncSteps : List MicroStep := [.select, .wait .sync, .release]

/-- READ (40_register_transport.md R130). -/
def readSteps : List MicroStep :=
  opening ++ msbFirst.flatMap addressSlot ++ [.turnaround] ++ msbFirst.flatMap responseSlot
    ++ [.wait .idle, .releaseDeliver]

/-- WRITE (40_register_transport.md R140). -/
def writeSteps : List MicroStep :=
  opening ++ msbFirst.flatMap (fun i => writeSlot (.driveAddr i))
    ++ msbFirst.flatMap (fun i => writeSlot (.driveData i)) ++ [.wait .idle, .release]

theorem syncSteps_length : syncSteps.length = 3 := by decide
theorem readSteps_length : readSteps.length = 78 := by decide
theorem writeSteps_length : writeSteps.length = 85 := by decide

/-- The micro-step at a position, none when idle (40_register_transport.md R121). -/
def SeqPos.microStep? : SeqPos → Option MicroStep
  | .idle => none
  | .sync k => syncSteps[k.val]?
  | .read k => readSteps[k.val]?
  | .write k => writeSteps[k.val]?

/-- The position after a micro-step: `k + 1`, or IDLE after the last one (40_register_transport.md R121). -/
def SeqPos.advance : SeqPos → SeqPos
  | .idle => .idle
  | .sync k => if h : k.val + 1 < 3 then .sync ⟨k.val + 1, h⟩ else .idle
  | .read k => if h : k.val + 1 < 78 then .read ⟨k.val + 1, h⟩ else .idle
  | .write k => if h : k.val + 1 < 85 then .write ⟨k.val + 1, h⟩ else .idle

/-- The effect of a micro-step on everything but SEQ (40_register_transport.md R130, R140, R150). A wait changes no state
(R127; 70_reset_and_hazards.md R270). -/
def State.perform (s : State) : MicroStep → State
  | .select => s.setNcs false
  | .release => s.setNcs true
  | .releaseDeliver => (s.setNcs true).deliverRdata
  | .clockLow => s.setSclk false
  | .clockHigh => s.setSclk true
  | .outputMode => s.setSdioOe true
  | .turnaround => (s.setSdioOe false).setSr 0x00
  | .driveAddr i => s.setSdioOut (bitOf s.rt.addr i)
  | .driveData i => s.setSdioOut (bitOf s.rt.wdata i)
  | .sampleShift => s.sampleShift
  | .wait _ => s

/-- One micro-step of the operation in progress; an idle sequencer does nothing (40_register_transport.md R121). -/
def State.microStep (s : State) : State :=
  match s.rt.seq.microStep? with
  | none => s
  | some m => (s.perform m).setSeq s.rt.seq.advance

/-- `n` micro-steps in a row, with nothing between them. -/
def State.microSteps (s : State) : Nat → State
  | 0 => s
  | n + 1 => s.microStep.microSteps n

/-- The least duration of an operation: the sum of the waits of its list (70_reset_and_hazards.md R271). -/
def leastDuration (steps : List MicroStep) : Nat :=
  (steps.map fun m => match m with | .wait t => Config.duration t | _ => 0).sum

/-- The pin trace of a list, given the latch and the samples: the list with the waits removed
(40_register_transport.md R156). -/
def pinTrace (addr wdata : Byte) : List MicroStep → List Level → List PinEvent
  | [], _ => []
  | .select :: l, b => .ncs false :: pinTrace addr wdata l b
  | .release :: l, b => .ncs true :: pinTrace addr wdata l b
  | .releaseDeliver :: l, b => .ncs true :: pinTrace addr wdata l b
  | .clockLow :: l, b => .sclk false :: pinTrace addr wdata l b
  | .clockHigh :: l, b => .sclk true :: pinTrace addr wdata l b
  | .outputMode :: l, b => .sdioOe true :: pinTrace addr wdata l b
  | .turnaround :: l, b => .sdioOe false :: pinTrace addr wdata l b
  | .driveAddr i :: l, b => .sdioOut (bitOf addr i) :: pinTrace addr wdata l b
  | .driveData i :: l, b => .sdioOut (bitOf wdata i) :: pinTrace addr wdata l b
  | .sampleShift :: l, [] => pinTrace addr wdata l []
  | .sampleShift :: l, v :: b => .sample v :: pinTrace addr wdata l b
  | .wait _ :: l, b => pinTrace addr wdata l b

end Sys2Proof.Machine
end

