-- ==== Sys2Proof/Machine/HostOps.lean ====
section
/-! DEFINITION. DRAIN, the companion steps of the main loop on the Motion Accumulator, and the pseudo-operations as lists
of inputs (42_host_operations.md; 30_encoding.md R109). -/

namespace Sys2Proof.Machine

/-- DRAIN (42_host_operations.md R190), accepted at any time, BUSY or not (R192). -/
def execDrain (s : State) : Host.Outcome State Fault Refusal := .next s.drainScroll

/-- An accumulation of RDATA (42_host_operations.md R194): its value where it is valid, else a free value, since the spec
gives RDATA none before a READ has ended (10_state.md R22, R39; log entry 16). While a transport operation is in progress
HOST takes no step (00_scope.md R7; 40 R122): log entry 9. -/
def State.accumulate (s : State) (add : State → Int → State) : Host.Outcome State Fault Refusal :=
  if s.busy then .refused .hostBlocked
  else
    match s.rdata with
    | some n => .next (add s n)
    | none => .next (add s.drawUnread (s8 (Config.unreadRdata s.env.unreadNo)))

/-- A companion step (42_host_operations.md R194, R196). -/
def execHostStep (h : HostStep) (s : State) : Host.Outcome State Fault Refusal :=
  match h with
  | .addY => s.accumulate State.addMy
  | .subX => s.accumulate State.subMx
  | .mdrain => if s.busy then .refused .hostBlocked else .next s.drainMotion

/-- The presentation of a transport command. -/
def commandInput (op : BitVec 2) (addr wdata : Byte) : Input := .command (cmdWord op addr wdata)

/-- A command followed by as many instants as its micro-steps take. -/
def transaction (op : BitVec 2) (addr wdata : Byte) (steps : List MicroStep) : List Input :=
  commandInput op addr wdata :: List.replicate steps.length .tick

/-- POLL: READ delta-Y, add it to MY, READ delta-X, subtract it from MX (30_encoding.md R109; 42 R194). -/
def pollInputs : List Input :=
  transaction opRead Config.addrDeltaY 0 readSteps ++ [.host .addY]
    ++ transaction opRead Config.addrDeltaX 0 readSteps ++ [.host .subX]

/-- EMIT: MDRAIN then DRAIN, the two results forming one report (30_encoding.md R109; 42 R197). -/
def emitInputs : List Input := [.host .mdrain, .ports 0 1]

/-- The start-up order once the lines are configured and the sensor enabled: `wait(T_POWERUP)`, in which nothing is
presented for any number of instants, then POWERUP_SYNC, one SYNC (30_encoding.md R109; 70_reset_and_hazards.md R252). -/
def powerupInputs (instants : Nat) : List Input := List.replicate instants .tick ++ transaction opSync 0 0 syncSteps

/-- A rising or falling edge on a line is the same event: the handler does not know its direction (30_encoding.md
R109; 41 R166). -/
def edgeAInput : Input := .ports maskA 0
@[inherit_doc edgeAInput] def edgeBInput : Input := .ports maskB 0

/-- The strobe of DRAIN with no event in the same instant (30_encoding.md R102). -/
def drainInput : Input := .ports 0 1

end Sys2Proof.Machine
end

