-- ==== Sys2Proof/Machine/Quadrature.lean ====
section
/-! DEFINITION. The quadrature decoder's operations EDGE_A and EDGE_B, each one indivisible step
(41_quadrature_decoder.md R160, R161, R162; 20_memory.md R77). -/

namespace Sys2Proof.Machine

/-- EDGE_A (41_quadrature_decoder.md R161). -/
def execEdgeA (s : State) : Host.Outcome State Fault Refusal := .next (s.edge maskA classifyA)

/-- EDGE_B (41_quadrature_decoder.md R162). -/
def execEdgeB (s : State) : Host.Outcome State Fault Refusal := .next (s.edge maskB classifyB)

end Sys2Proof.Machine
end

