-- ==== Sys2Proof/Machine/Transport.lean ====
section
/-! DEFINITION. The transport operations SYNC, READ and WRITE as HOST presents them (40_register_transport.md R123, R124).
Acceptance is one step; the micro-steps of the accepted operation (R130, R140, R150) are the later steps of RT, between
which edges and drains may fall (00_scope.md R8). Log entry 12. -/

namespace Sys2Proof.Machine

/-- SYNC (40_register_transport.md R150): accepted when idle, at the first of its 3 micro-steps. `addr` and `wdata` are
latched and read by no micro-step (30_encoding.md R105). -/
def execSync (addr wdata : Byte) (s : State) : Host.Outcome State Fault Refusal :=
  .next (s.present opSync addr wdata (.sync 0) s.rt.rdataValid)

/-- READ (40_register_transport.md R130): accepted when idle, at the first of its 78 micro-steps. RDATA is not valid
until it ends (10_state.md R22). -/
def execRead (addr wdata : Byte) (s : State) : Host.Outcome State Fault Refusal :=
  .next (s.present opRead addr wdata (.read 0) false)

/-- WRITE (40_register_transport.md R140): accepted when idle, at the first of its 85 micro-steps. -/
def execWrite (addr wdata : Byte) (s : State) : Host.Outcome State Fault Refusal :=
  .next (s.present opWrite addr wdata (.write 0) s.rt.rdataValid)

end Sys2Proof.Machine
end

