-- ==== Sys2Proof/Machine/Dispatch.lean ====
section
/-! DEFINITION. One arm per operation. -/

namespace Sys2Proof.Machine

def exec (i : Instr) (s : State) : Host.Outcome State Fault Refusal :=
  match i with
  | .sync addr wdata => Sys2Proof.Machine.execSync addr wdata s
  | .read addr wdata => Sys2Proof.Machine.execRead addr wdata s
  | .write addr wdata => Sys2Proof.Machine.execWrite addr wdata s
  | .edgeA => Sys2Proof.Machine.execEdgeA s
  | .edgeB => Sys2Proof.Machine.execEdgeB s
  | .drain => Sys2Proof.Machine.execDrain s

end Sys2Proof.Machine
end

