-- ==== Sys2Proof/Machine/Fetch.lean ====
section
/-! DEFINITION. Which agent moves next, and with what (00_scope.md R7, R8; 60_exceptions.md R215, R216). -/

namespace Sys2Proof.Machine

/-- What a step does: RT performs a micro-step, the block performs an operation, HOST takes a companion step, or the
input asks for nothing. -/
inductive Action where
  | micro
  | run (i : Instr)
  | host (h : HostStep)
  | nothing
deriving DecidableEq, Repr

/-- The operations due in an instant, in no order that matters (30_encoding.md R101, R102). -/
def dueOps (evt : BitVec 2) (drn : BitVec 1) : List Instr := eventOps evt ++ drainOps drn

/-- The ports of an instant once one of its operations has been taken from it. -/
def portsWithout (evt : BitVec 2) (drn : BitVec 1) : Instr → Input
  | .edgeA => .ports (evt &&& 0b01) drn
  | .edgeB => .ports (evt &&& 0b10) drn
  | .drain => .ports evt 0
  | .sync _ _ => .ports evt drn
  | .read _ _ => .ports evt drn
  | .write _ _ => .ports evt drn

/-- The operations due in one instant are performed one after another, in an order the spec does not fix
(60_exceptions.md R215): which of several is taken first is a free choice, and the others stay due. -/
def State.fetchPorts (s : State) (evt : BitVec 2) (drn : BitVec 1) (rest : List Input) : Action × State :=
  match dueOps evt drn with
  | [] => (.nothing, s.withInputs rest)
  | [i] => (.run i, s.withInputs rest)
  | i :: j :: l =>
    let chosen := (i :: j :: l).getD (Config.dueOrder s.env.orderNo % (l.length + 2)) i
    (.run chosen, (s.withInputs (portsWithout evt drn chosen :: rest)).drawOrder)

/-- The next action and the state it acts on. What arrives is taken before RT moves on, since nothing in the main loop
delays an edge (60_exceptions.md R216); a `tick`, or the end of the inputs, gives the step to RT. A command word that
names no operation is not accepted and changes nothing (30_encoding.md R104). -/
def State.fetch (s : State) : Action × State :=
  match s.env.inputs with
  | [] => (.micro, s)
  | .tick :: rest => (.micro, s.withInputs rest)
  | .command cmd :: rest =>
    match decodeCmd cmd with
    | .ok i => (.run i, s.withInputs rest)
    | .error _ => (.nothing, s.withInputs rest)
  | .ports evt drn :: rest => s.fetchPorts evt drn rest
  | .host h :: rest => (.host h, s.withInputs rest)

/-- The input that presents a port word. -/
def inputOf : PortWord → Input
  | .cmd w => .command w
  | .evt w => .ports w 0
  | .drn w => .ports 0 w

/-- A port word presented ahead of everything else. -/
def State.presentWord (s : State) (p : PortWord) : State := s.withInputs (inputOf p :: s.env.inputs)

end Sys2Proof.Machine
end

