-- ==== Sys2Proof/Machine/Step.lean ====
section
/-! DEFINITION. One step of the machine: what arrives next is taken, and its agent moves (00_scope.md R8). -/

namespace Sys2Proof.Machine

/-- One step. -/
def step (s : State) : Host.Outcome State Fault Refusal :=
  match s.fetch with
  | (.micro, t) => .next t.microStep
  | (.run i, t) => exec i t
  | (.host h, t) => execHostStep h t
  | (.nothing, t) => .next t

/-- `s` with a table word presented ahead of everything else, so that the very next step runs its operation (log
entry 5). -/
def State.withFetchWord (s : State) (nbits w : Nat) : State :=
  match tableWord nbits w with
  | some p => s.presentWord p
  | none => s

end Sys2Proof.Machine
end

