-- ==== Sys2Proof/Machine/Wire.lean ====
section
/-! DEFINITION. What the sensor is shown on the wire: a reading of the pin trace (20_memory.md R71, R72). -/

namespace Sys2Proof.Machine

/-- The levels of the four pins. -/
structure Pins where
  ncs : Level
  sclk : Level
  sdioOe : Level
  sdioOut : Level
deriving DecidableEq, Repr

/-- The pins of a transport. -/
def Transport.pins (t : Transport) : Pins :=
  { ncs := t.ncs, sclk := t.sclk, sdioOe := t.sdioOe, sdioOut := t.sdioOut }

/-- The pins after an entry of the pin trace; a sample moves no pin. -/
def Pins.after (p : Pins) : PinEvent → Pins
  | .ncs v => { p with ncs := v }
  | .sclk v => { p with sclk := v }
  | .sdioOut v => { p with sdioOut := v }
  | .sdioOe v => { p with sdioOe := v }
  | .sample _ => p

/-- An entry presents a bit to the sensor: chip-select is low, the data line is in output mode, and SCLK changes from
0 to 1 (20_memory.md R71). -/
def Pins.presents (p : Pins) : PinEvent → Bool
  | .sclk v => !p.ncs && p.sdioOe && !p.sclk && v
  | .ncs _ => false
  | .sdioOut _ => false
  | .sdioOe _ => false
  | .sample _ => false

/-- An entry asks the sensor for its next response bit: chip-select is low, the data line is in input mode, and SCLK
changes from 1 to 0 (20_memory.md R71). -/
def Pins.requests (p : Pins) : PinEvent → Bool
  | .sclk v => !p.ncs && !p.sdioOe && p.sclk && !v
  | .ncs _ => false
  | .sdioOut _ => false
  | .sdioOe _ => false
  | .sample _ => false

/-- The bits a trace presents to the sensor, in time order, from given pin levels (20_memory.md R71). -/
def presentedBits : Pins → List PinEvent → List Level
  | _, [] => []
  | p, e :: l => (if p.presents e then [p.sdioOut] else []) ++ presentedBits (p.after e) l

/-- The number of response bits a trace asks the sensor for, from given pin levels (20_memory.md R71). -/
def requestedBits : Pins → List PinEvent → Nat
  | _, [] => 0
  | p, e :: l => (if p.requests e then 1 else 0) + requestedBits (p.after e) l

end Sys2Proof.Machine
end

