-- ==== Sys2Proof/Safety.lean ====
section
/-! DEFINITION. The terms claims use: the transport's invariant at every position, the reference count of a sequence of
edges, runs of operations, the part of a state that is shown outside, and the relation of states that show the same. -/

namespace Sys2Proof.Machine

/-! ### The transport at each position -/

/-- The level of NCS before the micro-step at a position: low from micro-step 1 to the last (10_state.md R29). -/
def SeqPos.ncsLevel : SeqPos → Level
  | .idle => true
  | .sync k => k.val == 0
  | .read k => k.val == 0
  | .write k => k.val == 0

/-- The level of SCLK before the micro-step at a position: high at rest and between slots (40_register_transport.md R126,
R130, R140). -/
def SeqPos.sclkLevel : SeqPos → Level
  | .idle => true
  | .sync _ => true
  | .read k =>
    if k.val ≤ 1 then true else if k.val ≤ 3 then false
    else if k.val ≤ 43 then (k.val - 3) % 5 == 0
    else if k.val ≤ 75 then (k.val - 44) % 4 == 0 else true
  | .write k =>
    if k.val ≤ 1 then true else if k.val ≤ 3 then false
    else if k.val ≤ 83 then (k.val - 3) % 5 == 0 || (k.val - 3) % 5 == 4 else true

/-- The mode of the data line before the micro-step at a position, where the operation has fixed it (10_state.md R29;
40_register_transport.md R130, R140). -/
def SeqPos.oeLevel? : SeqPos → Option Level
  | .idle => none
  | .sync _ => none
  | .read k => if k.val ≤ 2 then none else some (decide (k.val ≤ 43))
  | .write k => if k.val ≤ 2 then none else some true

/-- The bit the operation drove last before the micro-step at a position, if it has driven one (40_register_transport.md
R130, R140). -/
def SeqPos.lastDriven? (addr wdata : Byte) : SeqPos → Option Level
  | .idle => none
  | .sync _ => none
  | .read k => if k.val ≤ 5 then none else (frameBits addr)[min 7 ((k.val - 6) / 5)]?
  | .write k => if k.val ≤ 5 then none else (frameBits addr ++ frameBits wdata)[min 15 ((k.val - 6) / 5)]?

/-- The latched OP of the operation in progress (10_state.md R31; 30_encoding.md R100). -/
def SeqPos.opCode? : SeqPos → Option (BitVec 2)
  | .idle => none
  | .sync _ => some opSync
  | .read _ => some opRead
  | .write _ => some opWrite

/-- How many response bits a READ has shifted in before the micro-step at a position, once it has cleared SR
(40_register_transport.md R130, R131). -/
def SeqPos.bitsShifted? : SeqPos → Option Nat
  | .idle => none
  | .sync _ => none
  | .read k => if k.val ≤ 43 then none else some ((k.val - 43) / 4)
  | .write _ => none

/-- A value an operation may have fixed agrees with the register that holds it. -/
def agrees {α : Type} [DecidableEq α] (fixed : Option α) (held : α) : Bool :=
  match fixed with
  | none => true
  | some v => held == v

/-- The transport's invariant: at every position the pins, the latch and SR hold what the micro-steps so far have put
there, and no RDATA is valid while a READ is in progress (10_state.md R22, R29, R31; 40_register_transport.md R130,
R140, R150). -/
def Transport.consistent (t : Transport) : Bool :=
  t.ncs == t.seq.ncsLevel
    && t.sclk == t.seq.sclkLevel
    && agrees t.seq.oeLevel? t.sdioOe
    && agrees (t.seq.lastDriven? t.addr t.wdata) t.sdioOut
    && agrees t.seq.opCode? t.op
    && (match t.seq.bitsShifted? with | none => true | some n => decide (t.sr.toNat < 2 ^ n))
    && (match t.seq with | .read _ => !t.rdataValid | .idle => true | .sync _ => true | .write _ => true)

/-- How many micro-steps the operation in progress still takes (10_state.md R26). -/
def SeqPos.remaining : SeqPos → Nat
  | .idle => 0
  | .sync k => 3 - k.val
  | .read k => 78 - k.val
  | .write k => 85 - k.val

/-! ### Samples -/

/-- The next `n` levels the environment supplies, in order, and the environment after they have been taken
(20_memory.md R68, R69). -/
def Environment.draw : Nat → Environment → List Level × Environment
  | 0, e => ([], e)
  | n + 1, e => (e.level :: (e.taken.draw n).1, (e.taken.draw n).2)

/-! ### Runs of operations and the reference count -/

/-- A sequence of operations performed one after another, ending at the first that stops. -/
def execAll : List Instr → State → Host.Outcome State Fault Refusal
  | [], s => .next s
  | i :: l, s =>
    match exec i s with
    | .next t => execAll l t
    | .fault r => .fault r
    | .refused r => .refused r

/-- The pair after an edge on one line, the other line's bit held (41_quadrature_decoder.md R166). Other operations move
no line. -/
def pairAfter (p : Pair) : Instr → Pair
  | .edgeA => p ^^^ 0b10
  | .edgeB => p ^^^ 0b01
  | .drain => p
  | .sync _ _ => p
  | .read _ _ => p
  | .write _ _ => p

/-- The signed unit of an edge from a pair: plus one on the cycle 00, 10, 11, 01, 00 and minus one on its reverse
(41_quadrature_decoder.md R171, R172). -/
def edgeUnit (p : Pair) : Instr → Int
  | .edgeA => if p = 0b00 ∨ p = 0b11 then 1 else -1
  | .edgeB => if p = 0b00 ∨ p = 0b11 then -1 else 1
  | .drain => 0
  | .sync _ _ => 0
  | .read _ _ => 0
  | .write _ _ => 0

/-- The pair after a sequence of edges. -/
def pairWalk (p : Pair) : List Instr → Pair
  | [] => p
  | i :: l => pairWalk (pairAfter p i) l

/-- The increments less the decrements of a sequence of edges from a pair. -/
def netCount (p : Pair) : List Instr → Int
  | [] => 0
  | i :: l => edgeUnit p i + netCount (pairAfter p i) l

/-- The pair after what a step does: only an edge moves a line. -/
def Action.pairAfter (p : Pair) : Action → Pair
  | .run i => Sys2Proof.Machine.pairAfter p i
  | .micro => p
  | .host _ => p
  | .nothing => p

/-- The signed unit of what a step does from a pair: only an edge counts. -/
def Action.unit (p : Pair) : Action → Int
  | .run i => edgeUnit p i
  | .micro => 0
  | .host _ => 0
  | .nothing => 0

/-- The vertical counts among delivered pairs, summed. -/
def verticalSum (l : List (Int × Int)) : Int := (l.map Prod.fst).sum

/-! ### Schedules -/

/-- An input that brings one operation on the decoder, or none: an instant that lets RT move, one edge, or one DRAIN. -/
def Input.isQuiet (x : Input) : Bool :=
  x == .tick || x == edgeAInput || x == edgeBInput || x == drainInput

/-- The operations on the decoder that an input of that kind brings. -/
def Input.decoderOps (x : Input) : List Instr :=
  match x with
  | .tick => []
  | .command _ => []
  | .ports evt drn => dueOps evt drn
  | .host _ => []

/-! ### What is shown outside -/

/-- A state with the registers blanked whose reset value the spec leaves unspecified (10_state.md R36, R39). -/
def State.shown (s : State) : State :=
  { s with rt := { s.rt with op := 0, addr := 0, wdata := 0, sr := 0 } }

/-- Two states that may differ in the unspecified registers only, and in these only where no rule reads them: the latch
agrees while an operation is in progress, and SR agrees where RDATA is valid and from the turnaround of a READ on
(10_state.md R22, R31, R39; 40_register_transport.md R130). -/
def State.alike (s t : State) : Prop :=
  s.shown = t.shown
    ∧ (s.busy = true → s.rt.op = t.rt.op ∧ s.rt.addr = t.rt.addr ∧ s.rt.wdata = t.rt.wdata)
    ∧ (s.rt.rdataValid = true → s.rt.sr = t.rt.sr)
    ∧ ∀ k, s.rt.seq = .read k → 44 ≤ k.val → s.rt.sr = t.rt.sr

/-- Two outcomes that nothing outside can tell apart by what is shown. -/
def sameShown : Host.Outcome State Fault Refusal → Host.Outcome State Fault Refusal → Prop
  | .next s, .next t => s.shown = t.shown
  | .refused r, .refused q => r = q
  | .fault r, .fault q => r = q
  | .next _, .refused _ => False
  | .next _, .fault _ => False
  | .refused _, .next _ => False
  | .refused _, .fault _ => False
  | .fault _, .next _ => False
  | .fault _, .refused _ => False

end Sys2Proof.Machine
end

