-- ==== Sys2Proof/Certificates/Slice0/Obligations.lean ====
section
/-! DEFINITION. The statements for the provers, one `def Obligations.<Name> : Prop` each. A docstring names the rule a
statement comes from; "choice" marks what rests on the spec's own decisions or on a log entry of this model. -/

open Sys2Proof Sys2Proof.Machine

/-! ### Reset -/

/-- The values after reset that the spec gives (10_state.md section 8, R36 to R38; the spec's own choice, decisions D6, D7).
The registers it leaves unspecified are not named. -/
def Obligations.ResetLeavesTheStatedValues : Prop :=
  State.reset.rt.ncs = true ∧ State.reset.rt.sclk = true
    ∧ State.reset.rt.sdioOe = false ∧ State.reset.rt.sdioOut = false
    ∧ State.reset.rt.seq = .idle ∧ State.reset.busy = false
    ∧ State.reset.qd.hist = 0x00 ∧ State.reset.qd.vscroll = 0 ∧ State.reset.qd.hscroll = 0
    ∧ State.reset.motion.mx = 0 ∧ State.reset.motion.my = 0

/-- The transport's invariant holds at reset (reset levels: the spec's decision D6). -/
def Obligations.ResetTransportIsConsistent : Prop :=
  State.reset.rt.consistent = true

/-- Every step keeps the transport's invariant: the pins, the latch and SR stay what the position in the list says
(10_state.md R29, R31; 40_register_transport.md R130, R140, R150; the lists rest on decisions D4, D5, D20). The invariant
also says that no RDATA is valid while a READ is in progress (10_state.md R22); that validity ends at acceptance, so
already before the first micro-step, is the model's choice, log entry 2 (DEDUCED). -/
def Obligations.TransportStaysConsistent : Prop :=
  ∀ s t : State, s.rt.consistent = true → step s = .next t → t.rt.consistent = true

/-! ### Encoding -/

/-- Decode and encode agree on every operation with every operand (30_encoding.md sections 4, decisions D2, D3). -/
def Obligations.DecodeOfEncodeIsTheOperation : Prop :=
  ∀ i : Instr, i.wellFormed = true → decode (encode i) = .ok [i]

/-- No bit of a CMD word is dropped: encoding what it decodes to gives it back, ignored bits too. -/
def Obligations.CommandWordIsKeptWhole : Prop :=
  ∀ (w : BitVec 18) (i : Instr), decodeCmd w = .ok i → encode i = .cmd w

/-- A CMD word is rejected exactly when its two high bits are 11, and only as reserved (30_encoding.md R104, decision
D11). -/
def Obligations.OnlyOpElevenIsReserved : Prop :=
  ∀ w : BitVec 18,
    (w.toNat / 0x10000 = 3 → decodeCmd w = .error .reservedOp)
      ∧ (w.toNat / 0x10000 ≠ 3 → ∃ i, decodeCmd w = .ok i)

/-- Words written out from the encoding tables decode to the operations they stand for (30_encoding.md R100, R101,
R102). -/
def Obligations.WrittenOutWordsDecode : Prop :=
  decode (.cmd 0b000000000000000000) = .ok [.sync 0x00 0x00]
    ∧ decode (.cmd 0b010001010100000000) = .ok [.read 0x15 0x00]
    ∧ decode (.cmd 0b100010110001011010) = .ok [.write 0x2C 0x5A]
    ∧ decode (.evt 0b10) = .ok [.edgeA]
    ∧ decode (.evt 0b01) = .ok [.edgeB]
    ∧ decode (.drn 0b1) = .ok [.drain]

/-! ### What a step does -/

/-- When the next input is a port word that asks for one operation, the step takes that input and is `exec` of the
operation. -/
def Obligations.StepRunsTheDecodedOperation : Prop :=
  ∀ (s : State) (p : PortWord) (rest : List Input) (i : Instr),
    s.env.inputs = inputOf p :: rest → decode p = .ok [i] → i.wellFormed = true →
      step s = exec i (s.withInputs rest)

/-- A port word that asks for no operation (OP = 11, EVT = 00, DRN = 0) is taken and changes nothing else
(30_encoding.md R101, R102, R104; decisions D3, D11; log entries 7, 8). -/
def Obligations.WordThatAsksForNothingChangesNothing : Prop :=
  ∀ (s : State) (p : PortWord) (rest : List Input) (r : Reject),
    s.env.inputs = inputOf p :: rest → decode p = .error r → step s = .next (s.withInputs rest)

/-- With nothing arriving the step is RT's: one micro-step, and none when idle (40_register_transport.md R121; the idle
step is the model's choice, log entry 6). -/
def Obligations.StepWithNothingArrivingIsAMicroStep : Prop :=
  ∀ s : State,
    (s.env.inputs = [] → step s = .next s.microStep)
      ∧ (∀ rest, s.env.inputs = .tick :: rest → step s = .next (s.withInputs rest).microStep)

/-- The operations due in one instant are performed one after another, each once, in some order: the steps that take them
are those of a permutation of them (60_exceptions.md R215, decision D9; log entry 4). -/
def Obligations.OperationsOfAnInstantRunInSomeOrder : Prop :=
  ∀ (s : State) (evt : BitVec 2) (drn : BitVec 1) (rest : List Input),
    s.env.inputs = .ports evt drn :: rest →
      ∃ (l : List Instr) (u : State) (n : Nat),
        l.Perm (dueOps evt drn)
          ∧ execAll l (s.withInputs rest) = .next u
          ∧ Host.Core.run Sys2Proof.core (max 1 l.length) s
              = .next { u with env := { u.env with orderNo := n } }

/-- The two orders of a simultaneous A and B edge differ in VSCROLL by plus and minus two and agree in the current pair
(60_exceptions.md R215). -/
def Obligations.OrdersOfSimultaneousEdgesDiffer : Prop :=
  ∀ s : State, currentPair s.qd.hist = 0b00 →
    ∃ t u : State, execAll [.edgeA, .edgeB] s = .next t ∧ execAll [.edgeB, .edgeA] s = .next u
      ∧ t.qd.vscroll = s.qd.vscroll + 2 ∧ u.qd.vscroll = s.qd.vscroll - 2
      ∧ currentPair t.qd.hist = 0b11 ∧ currentPair u.qd.hist = 0b11

/-- No operation stops the machine, and no step faults; a step is refused only where the input is a companion step
while BUSY (60_exceptions.md R210; 00_scope.md R7; log entry 9, the model's choice). That the run goes on after a command
presented while BUSY, too, is the model's choice, log entry 7 (DEDUCED, and unsafe against decision D10, which speaks of a
model that stops). -/
def Obligations.OnlyCompanionStepsAreRefused : Prop :=
  (∀ (i : Instr) (s : State), ∃ t, exec i s = .next t)
    ∧ (∀ (s : State) (f : Fault), step s ≠ .fault f)
    ∧ ∀ (s : State) (r : Refusal), step s = .refused r →
        ∃ h rest, s.env.inputs = .host h :: rest
          ∧ s.busy = true ∧ r = .hostBlocked

/-! ### READ -/

/-- READ from any idle state: accepted in one step with no pin changed, and 78 micro-steps later ended, with the
response byte in SR, the pins at rest, RDATA delivered and nothing else changed but the pin trace and the samples taken
(40_register_transport.md R123, R125, R130, R133; decisions D2, D4, D5, D19, D20). That RDATA stops being valid at
acceptance is the model's choice, log entry 2. -/
def Obligations.ReadRunsToItsEndState : Prop :=
  ∀ (s : State) (addr wdata : Byte), s.rt.seq = .idle →
    ∃ t, exec (.read addr wdata) s = .next t
      ∧ t = { s with
          rt := { s.rt with op := 0b01, addr := addr, wdata := wdata, seq := .read 0, rdataValid := false } }
      ∧ t.microSteps 78 =
        { s with
          rt :=
            { ncs := true, sclk := true, sdioOut := addr.getLsbD 0, sdioOe := false, seq := .idle
              op := 0b01, addr := addr, wdata := wdata
              sr := byteOfBits (s.env.draw 8).1, rdataValid := true }
          env := (s.env.draw 8).2
          obs :=
            { s.obs with
              trace := s.obs.trace ++ pinTrace addr wdata readSteps (s.env.draw 8).1
              rdata := s.obs.rdata ++ [s8 (byteOfBits (s.env.draw 8).1)] } }

/-- A READ that nothing interrupts, as the machine runs it, delivers the byte the sensor puts on the wire
most-significant bit first (20_memory.md R69). -/
def Obligations.ReadDeliversTheByteOnTheWire : Prop :=
  ∀ (s : State) (addr wdata b : Byte) (rest : List Level),
    s.rt.seq = .idle → s.env.inputs = [] → s.env.samples = frameBits b ++ rest →
      ∃ t u, exec (.read addr wdata) s = .next t ∧ Host.Core.run Sys2Proof.core 78 t = .next u
        ∧ u.busy = false ∧ u.rt.sr = b ∧ u.rdata = some (s8 b)
        ∧ u.obs.rdata = s.obs.rdata ++ [s8 b] ∧ u.env.samples = rest
        ∧ u.qd = s.qd ∧ u.motion = s.motion

/-- The micro-step list of READ, row by row (40_register_transport.md R130; decisions D4, D5, D20). -/
def Obligations.ReadMicroStepTable : Prop :=
  readSteps.length = 78
    ∧ readSteps.take 3 = [.select, .clockLow, .outputMode]
    ∧ (∀ j : Fin 8, (readSteps.drop (3 + 5 * j.val)).take 5
        = [.clockLow, .wait .aSetup, .driveAddr (7 - j), .wait .aHold, .clockHigh])
    ∧ (readSteps.drop 43).take 1 = [.turnaround]
    ∧ (∀ j : Fin 8, (readSteps.drop (44 + 4 * j.val)).take 4
        = [.clockLow, .wait .rSetup, .sampleShift, .clockHigh])
    ∧ readSteps.drop 76 = [.wait .idle, .releaseDeliver]

/-- The response shift (40_register_transport.md R131): in input mode, the micro-step 46 + 4j moves SR up by one and puts
the level of the data line in bit 0, and changes nothing else but SEQ, the samples left and the trace; READ samples once
in each response slot; after eight samples the first is bit 7 and the last is bit 0. -/
def Obligations.ResponseBitsShiftInMostSignificantFirst : Prop :=
  (∀ (s : State) (j : Fin 8) (h : 47 + 4 * j.val < 78),
      s.rt.seq = .read ⟨46 + 4 * j.val, by omega⟩ → s.rt.sdioOe = false →
        s.microStep =
          { s with
            rt :=
              { s.rt with
                seq := .read ⟨47 + 4 * j.val, h⟩
                sr := (s.rt.sr <<< 1) ||| (if s.env.level then 1 else 0) }
            env := s.env.taken
            obs := { s.obs with trace := s.obs.trace ++ [.sample s.env.level] } })
    ∧ readSteps.count .sampleShift = 8
    ∧ (∀ j : Fin 8, (readSteps.drop (46 + 4 * j.val)).head? = some .sampleShift)
    ∧ ∀ bits : List Level, bits.length = 8 →
        ∀ i : Fin 8, bits[i.val]? = some ((byteOfBits bits).getLsbD (7 - i.val))

/-- The conversion (40_register_transport.md R132): both formulas of the source agree with the value returned on all 256
bytes, it is in -128..127, the examples hold, and the closing micro-step of every READ delivers it, whatever the
address (R125, R130, decision D19), with RDATA valid from then on (log entry 2). -/
def Obligations.ReadResultIsTheSignedByte : Prop :=
  (∀ b : Byte,
      s8 b = (if b.toNat < 0x80 then (b.toNat : Int) else (b.toNat : Int) - 256)
        ∧ s8 b = (if b.getLsbD 7 then -128 + ((b &&& 0x7F).toNat : Int) else (b.toNat : Int))
        ∧ -128 ≤ s8 b ∧ s8 b ≤ 127)
    ∧ s8 0x00 = 0 ∧ s8 0x05 = 5 ∧ s8 0x7F = 127 ∧ s8 0x80 = -128 ∧ s8 0xFE = -2 ∧ s8 0xFF = -1
    ∧ ∀ s : State, s.rt.seq = .read 77 →
        s.microStep.obs.rdata = s.obs.rdata ++ [s8 s.rt.sr] ∧ s.microStep.rdata = some (s8 s.rt.sr)

/-- The signed and unsigned readings, the narrowing and the two extensions (00_scope.md R11). -/
def Obligations.SignedReadingsOfAByte : Prop :=
  (∀ p : Byte, (p.toNat < 128 → s8 p = p.toNat) ∧ (128 ≤ p.toNat → s8 p = (p.toNat : Int) - 256))
    ∧ (∀ p : Byte, s8 p = if p.getLsbD 7 then -128 + ((p &&& 0x7F).toNat : Int) else (p.toNat : Int))
    ∧ (∀ n : Int, ((u8 n).toNat : Int) = n % 256 ∧ wrap8 n = s8 (u8 n) ∧ -128 ≤ wrap8 n ∧ wrap8 n ≤ 127)
    ∧ (∀ (n : Nat) (p : Byte) (i : Nat), 8 ≤ n → i < n →
        (sext n p).getLsbD i = (if i < 8 then p.getLsbD i else p.getLsbD 7)
          ∧ (zext n p).getLsbD i = (if i < 8 then p.getLsbD i else false))

/-- The READ wire format (30_encoding.md R91; 20_memory.md R71), with the clock as 40_register_transport.md R126 and
decision D4 place it (the clock high at the turnaround and eight falling edges after it are the spec's own choice, and may
differ from the source: 91_not_in_source.md N6): chip-select low, eight slots in which the block drives the address,
most-significant bit first, to a sensor that samples on rising clock edges, the turnaround, eight slots in which the
block drives nothing and asks for each response bit by clock low, waits, samples it and drives the clock high,
chip-select high. -/
def Obligations.ReadShowsTheAddressThenListens : Prop :=
  ∀ (p : Pins) (addr wdata : Byte) (bits : List Level), bits.length = 8 →
    ∃ before after : List PinEvent,
      pinTrace addr wdata readSteps bits = .ncs false :: before ++ .sdioOe false :: after ++ [.ncs true]
        ∧ presentedBits { p with ncs := false } before
            = [addr.getLsbD 7, addr.getLsbD 6, addr.getLsbD 5, addr.getLsbD 4,
               addr.getLsbD 3, addr.getLsbD 2, addr.getLsbD 1, addr.getLsbD 0]
        ∧ presentedBits { ncs := false, sclk := true, sdioOe := false, sdioOut := addr.getLsbD 0 } after = []
        ∧ requestedBits { ncs := false, sclk := true, sdioOe := false, sdioOut := addr.getLsbD 0 } after = 8
        ∧ before.foldl Pins.after { p with ncs := false }
            = { ncs := false, sclk := true, sdioOe := true, sdioOut := addr.getLsbD 0 }
        ∧ after = bits.flatMap (fun v => [.sclk false, .sample v, .sclk true])
        ∧ ∀ j : Fin 8, (readSteps.drop (44 + 4 * j.val)).take 4
            = [.clockLow, .wait .rSetup, .sampleShift, .clockHigh]

/-! ### WRITE -/

/-- WRITE from any idle state: accepted in one step with no pin changed, and 85 micro-steps later ended, with the data
line still driven and nothing else changed but the latch and the pin trace (40_register_transport.md R123, R140, R141;
decisions D2, D4, D5, D19). -/
def Obligations.WriteRunsToItsEndState : Prop :=
  ∀ (s : State) (addr wdata : Byte), s.rt.seq = .idle →
    ∃ t, exec (.write addr wdata) s = .next t
      ∧ t = { s with rt := { s.rt with op := 0b10, addr := addr, wdata := wdata, seq := .write 0 } }
      ∧ t.microSteps 85 =
        { s with
          rt :=
            { ncs := true, sclk := true, sdioOut := wdata.getLsbD 0, sdioOe := true, seq := .idle
              op := 0b10, addr := addr, wdata := wdata
              sr := s.rt.sr, rdataValid := s.rt.rdataValid }
          obs := { s.obs with trace := s.obs.trace ++ pinTrace addr wdata writeSteps [] } }

/-- The micro-step list of WRITE, row by row (40_register_transport.md R140; decisions D4, D5). -/
def Obligations.WriteMicroStepTable : Prop :=
  writeSteps.length = 85
    ∧ writeSteps.take 3 = [.select, .clockLow, .outputMode]
    ∧ (∀ j : Fin 8, (writeSteps.drop (3 + 5 * j.val)).take 5
        = [.clockLow, .wait .wPre, .driveAddr (7 - j), .clockHigh, .wait .wPost])
    ∧ (∀ j : Fin 8, (writeSteps.drop (3 + 5 * (j.val + 8))).take 5
        = [.clockLow, .wait .wPre, .driveData (7 - j), .clockHigh, .wait .wPost])
    ∧ writeSteps.drop 83 = [.wait .idle, .release]

/-- The WRITE wire format (30_encoding.md R92): chip-select low, sixteen slots in which the block drives the address and
then the data byte, each most-significant bit first, to a sensor that samples on rising clock edges, with no turnaround,
chip-select high. -/
def Obligations.WriteShowsTheAddressThenTheData : Prop :=
  ∀ (p : Pins) (addr wdata : Byte),
    ∃ slots : List PinEvent,
      pinTrace addr wdata writeSteps [] = .ncs false :: slots ++ [.ncs true]
        ∧ .sdioOe false ∉ slots
        ∧ presentedBits { p with ncs := false } slots
            = [addr.getLsbD 7, addr.getLsbD 6, addr.getLsbD 5, addr.getLsbD 4,
               addr.getLsbD 3, addr.getLsbD 2, addr.getLsbD 1, addr.getLsbD 0,
               wdata.getLsbD 7, wdata.getLsbD 6, wdata.getLsbD 5, wdata.getLsbD 4,
               wdata.getLsbD 3, wdata.getLsbD 2, wdata.getLsbD 1, wdata.getLsbD 0]

/-! ### SYNC -/

/-- SYNC (40_register_transport.md R150; wire format 30_encoding.md R93; acceptance R123, decision D2, as one step of its
own: log entry 12): three micro-steps; from any idle state it is accepted with no pin changed, BUSY is 1 until micro-step 2 has been performed, and then chip-select is high, its two
pin writes are the trace, and nothing else has changed but the latch. -/
def Obligations.SyncPulsesChipSelectOnly : Prop :=
  syncSteps = [.select, .wait .sync, .release]
    ∧ ∀ (s : State) (addr wdata : Byte), s.rt.seq = .idle →
      ∃ t, decodeCmd (0b00#2 ++ addr ++ wdata) = .ok (.sync addr wdata)
        ∧ exec (.sync addr wdata) s = .next t
        ∧ t = { s with rt := { s.rt with op := 0b00, addr := addr, wdata := wdata, seq := .sync 0 } }
        ∧ t.busy = true ∧ (t.microSteps 1).busy = true ∧ (t.microSteps 2).busy = true
        ∧ t.microSteps 3 =
          { s with
            rt := { s.rt with ncs := true, seq := .idle, op := 0b00, addr := addr, wdata := wdata }
            obs := { s.obs with trace := s.obs.trace ++ [.ncs false, .ncs true] } }

/-- Two SYNCs in immediate succession leave in the block exactly what one leaves (40_register_transport.md R152). -/
def Obligations.SyncTwiceLeavesWhatOneLeaves : Prop :=
  ∀ (s : State) (addr wdata : Byte), s.rt.seq = .idle →
    ∃ t u, exec (.sync addr wdata) s = .next t ∧ exec (.sync addr wdata) (t.microSteps 3) = .next u
      ∧ (u.microSteps 3).rt = (t.microSteps 3).rt ∧ (u.microSteps 3).qd = (t.microSteps 3).qd
      ∧ (u.microSteps 3).motion = (t.microSteps 3).motion ∧ (u.microSteps 3).env = (t.microSteps 3).env

/-! ### The transport as a whole -/

/-- A command presented while BUSY = 1 is turned away: nothing is latched and the operation in progress is not disturbed
(40_register_transport.md R124, decision D10; that the run goes on is log entry 7). -/
def Obligations.CommandWhileBusyIsTurnedAway : Prop :=
  ∀ (s : State) (addr wdata : Byte), s.busy = true →
    exec (.sync addr wdata) s = .next s ∧ exec (.read addr wdata) s = .next s
      ∧ exec (.write addr wdata) s = .next s

/-- The bits a command ignores change nothing but the latch field that holds them, at any point of the run that follows
(30_encoding.md R105, decisions D11, D12). -/
def Obligations.IgnoredCommandBitsHaveNoEffect : Prop :=
  ∀ (s : State) (addr addr' wdata wdata' : Byte) (n : Nat),
    (∃ t t', exec (.read addr wdata) s = .next t ∧ exec (.read addr wdata') s = .next t'
      ∧ { t.microSteps n with rt := { (t.microSteps n).rt with wdata := 0 } }
          = { t'.microSteps n with rt := { (t'.microSteps n).rt with wdata := 0 } })
    ∧ (s.busy = false →
      ∃ t t', exec (.sync addr wdata) s = .next t ∧ exec (.sync addr' wdata') s = .next t'
        ∧ { t.microSteps n with rt := { (t.microSteps n).rt with addr := 0, wdata := 0 } }
            = { t'.microSteps n with rt := { (t'.microSteps n).rt with addr := 0, wdata := 0 } })

/-- While an operation is in progress no step changes the command latch, whatever arrives (10_state.md R31;
20_memory.md R78; decision D2). -/
def Obligations.LatchHoldsWhileBusy : Prop :=
  ∀ s t : State, s.busy = true → step s = .next t →
    t.rt.op = s.rt.op ∧ t.rt.addr = s.rt.addr ∧ t.rt.wdata = s.rt.wdata

/-- The transport always runs to completion: BUSY stays 1 for exactly the micro-steps left in the list, at most 85, and
is 0 after them, whatever the data is (10_state.md R26; 70_reset_and_hazards.md R267, R270; decision D1). -/
def Obligations.TransportRunsToCompletion : Prop :=
  ∀ s : State,
    s.rt.seq.remaining ≤ 85
      ∧ (∀ n, n < s.rt.seq.remaining → (s.microSteps n).busy = true)
      ∧ (s.microSteps s.rt.seq.remaining).busy = false

/-- Nothing but a READ writes SR (10_state.md R21): a step that changes it is a micro-step of RT, the turnaround of a READ
(index 43) or one of its eight samples (index 46 + 4j; 40_register_transport.md R130, R131). -/
def Obligations.OnlyAReadWritesSr : Prop :=
  ∀ s t : State, step s = .next t → t.rt.sr ≠ s.rt.sr →
    (s.fetch).1 = .micro
      ∧ ∃ k, s.rt.seq = .read k ∧ (k.val = 43 ∨ ∃ j : Fin 8, k.val = 46 + 4 * j.val)

/-- Lengths of the lists and of the pin traces (40_register_transport.md R156; decisions D4, D5). -/
def Obligations.TraceLengths : Prop :=
  (readSteps.filter fun m => match m with | .wait _ => true | _ => false).length = 25
    ∧ (writeSteps.filter fun m => match m with | .wait _ => true | _ => false).length = 33
    ∧ ∀ (addr wdata : Byte) (bits : List Level), bits.length = 8 →
        (pinTrace addr wdata readSteps bits).length = 53
          ∧ (pinTrace addr wdata writeSteps []).length = 52
          ∧ (pinTrace addr wdata syncSteps []).length = 2

/-- The least duration of each operation in terms of the named waits (70_reset_and_hazards.md R271; the waits' places are
decision D5). -/
def Obligations.LeastDurations : Prop :=
  leastDuration readSteps
      = 8 * (Config.duration .aSetup + Config.duration .aHold) + 8 * Config.duration .rSetup + Config.duration .idle
    ∧ leastDuration writeSteps
      = 16 * (Config.duration .wPre + Config.duration .wPost) + Config.duration .idle
    ∧ leastDuration syncSteps = Config.duration .sync

/-- The data wire carries SDIO_OUT in output mode and the environment's level in input mode (10_state.md R30, decision
D23; 20_memory.md R68). Where that level comes from, the list of levels and after it a free value, is the model's choice,
log entry 3. -/
def Obligations.DataLineLevel : Prop :=
  ∀ s : State,
    (s.rt.sdioOe = true → s.sdioLine = s.rt.sdioOut)
      ∧ (s.rt.sdioOe = false →
          s.sdioLine = s.env.level
            ∧ (∀ b rest, s.env.samples = b :: rest → s.sdioLine = b)
            ∧ (s.env.samples = [] → s.sdioLine = Config.sampleBit s.env.sampleNo))

/-- The registers whose reset value the spec leaves unspecified never show: two machines that differ in SR and the
command latch only, both idle with no valid RDATA, run alike for any number of steps in everything outside those four
registers (10_state.md R39). So nothing shown rests on log entry 1. -/
def Obligations.UnspecifiedRegistersNeverShow : Prop :=
  ∀ (s : State) (op : BitVec 2) (addr wdata sr : Byte) (n : Nat),
    s.rt.seq = .idle → s.rt.rdataValid = false →
      sameShown (Host.Core.run Sys2Proof.core n s)
        (Host.Core.run Sys2Proof.core n
          { s with rt := { s.rt with op := op, addr := addr, wdata := wdata, sr := sr } })

/-! ### The quadrature decoder -/

/-- EDGE_A (41_quadrature_decoder.md R161): completes in every state, with this HIST and VSCROLL and nothing else
changed; an event code asks for it exactly when its line's bit is 1. -/
def Obligations.EdgeAUpdatesHistoryAndCount : Prop :=
  (∀ s : State,
      let new : BitVec 2 := s.qd.hist.extractLsb' 0 2 ^^^ 0b10
      let hist : BitVec 8 := (s.qd.hist <<< 2) ||| new.setWidth 8
      let pat : BitVec 4 := hist.extractLsb' 0 4
      exec .edgeA s = .next { s with
        qd := { s.qd with
          hist := hist
          vscroll :=
            if pat = 0b0010 ∨ pat = 0b1101 then u8 (s8 s.qd.vscroll + 1)
            else if pat = 0b0111 ∨ pat = 0b1000 then u8 (s8 s.qd.vscroll - 1)
            else s.qd.vscroll } })
    ∧ exec .edgeA { State.reset with qd := { hist := 0x00, vscroll := 0, hscroll := 0 } }
        = .next { State.reset with qd := { hist := 0x02, vscroll := 1, hscroll := 0 } }
    ∧ ∀ evt : BitVec 2, Instr.edgeA ∈ eventOps evt ↔ evt.getLsbD 1 = true

/-- EDGE_B (41_quadrature_decoder.md R162): completes in every state, with this HIST and VSCROLL and nothing else
changed; an event code asks for it exactly when its line's bit is 1. -/
def Obligations.EdgeBUpdatesHistoryAndCount : Prop :=
  (∀ s : State,
      let new : BitVec 2 := s.qd.hist.extractLsb' 0 2 ^^^ 0b01
      let hist : BitVec 8 := (s.qd.hist <<< 2) ||| new.setWidth 8
      let pat : BitVec 4 := hist.extractLsb' 0 4
      exec .edgeB s = .next { s with
        qd := { s.qd with
          hist := hist
          vscroll :=
            if pat = 0b1011 ∨ pat = 0b0100 then u8 (s8 s.qd.vscroll + 1)
            else if pat = 0b1110 ∨ pat = 0b0001 then u8 (s8 s.qd.vscroll - 1)
            else s.qd.vscroll } })
    ∧ exec .edgeB { State.reset with qd := { hist := 0x02, vscroll := 1, hscroll := 0 } }
        = .next { State.reset with qd := { hist := 0x0B, vscroll := 2, hscroll := 0 } }
    ∧ ∀ evt : BitVec 2, Instr.edgeB ∈ eventOps evt ↔ evt.getLsbD 0 = true

/-- The transition tables (30_encoding.md R103): after its update of HIST each handler moves VSCROLL by the row of the
pattern HIST[3:0]. Over all 16 patterns each handler's classification is the table of 41_quadrature_decoder.md R170, where
no change is the row of every pattern outside the handler's four (30_encoding.md R106), and a handler's own update produces
exactly the patterns of its four (R170, R171, which the spec marks as derived). That plus and minus one wrap is
10_state.md R24 and 41_quadrature_decoder.md R165, decision D8 (log entry 13). -/
def Obligations.HandlersFollowTheTransitionTables : Prop :=
  (∀ s : State,
    (∃ t, exec .edgeA s = .next t
      ∧ t.qd.vscroll = countStep s.qd.vscroll (classifyA (patternOf t.qd.hist))
      ∧ (patternOf t.qd.hist = 0b0010 ∨ patternOf t.qd.hist = 0b1101 → t.qd.vscroll = s.qd.vscroll + 1)
      ∧ (patternOf t.qd.hist = 0b0111 ∨ patternOf t.qd.hist = 0b1000 → t.qd.vscroll = s.qd.vscroll - 1)
      ∧ (patternOf t.qd.hist ∉ ([0b0010, 0b1101, 0b0111, 0b1000] : List Pattern) →
          t.qd.vscroll = s.qd.vscroll))
    ∧ (∃ t, exec .edgeB s = .next t
      ∧ t.qd.vscroll = countStep s.qd.vscroll (classifyB (patternOf t.qd.hist))
      ∧ (patternOf t.qd.hist = 0b1011 ∨ patternOf t.qd.hist = 0b0100 → t.qd.vscroll = s.qd.vscroll + 1)
      ∧ (patternOf t.qd.hist = 0b1110 ∨ patternOf t.qd.hist = 0b0001 → t.qd.vscroll = s.qd.vscroll - 1)
      ∧ (patternOf t.qd.hist ∉ ([0b1011, 0b0100, 0b1110, 0b0001] : List Pattern) →
          t.qd.vscroll = s.qd.vscroll)))
    ∧ (∀ c : Byte, countStep c .up = c + 1 ∧ countStep c .down = c - 1 ∧ countStep c .hold = c)
    ∧ (List.range 16).map (fun n => classifyA (BitVec.ofNat 4 n))
        = [.hold, .hold, .up, .hold, .hold, .hold, .hold, .down, .down, .hold, .hold, .hold, .hold, .up, .hold, .hold]
    ∧ (List.range 16).map (fun n => classifyB (BitVec.ofNat 4 n))
        = [.hold, .down, .hold, .hold, .up, .hold, .hold, .hold, .hold, .hold, .hold, .up, .hold, .hold, .down, .hold]
    ∧ (∀ pat : Pattern,
        (∃ s t, exec .edgeA s = .next t ∧ patternOf t.qd.hist = pat)
          ↔ pat ∈ ([0b0010, 0b1101, 0b0111, 0b1000] : List Pattern))
    ∧ ∀ pat : Pattern,
        (∃ s t, exec .edgeB s = .next t ∧ patternOf t.qd.hist = pat)
          ↔ pat ∈ ([0b1011, 0b0100, 0b1110, 0b0001] : List Pattern)

/-- The shift (41_quadrature_decoder.md R164): the former HIST[7:6] are dropped, HIST[5:0] move to HIST[7:2], HIST[1:0]
is the new pair and HIST[3:2] the former one; the former HIST[7:2] have no influence on the pattern or on VSCROLL. -/
def Obligations.HistoryShiftsByOnePair : Prop :=
  ∀ im ∈ [(Instr.edgeA, (0b10 : Pair)), (Instr.edgeB, (0b01 : Pair))], ∀ s s' : State,
    ∃ t t', exec im.1 s = .next t ∧ exec im.1 s' = .next t'
      ∧ t.qd.hist.extractLsb' 2 6 = s.qd.hist.extractLsb' 0 6
      ∧ previousPair t.qd.hist = currentPair s.qd.hist
      ∧ currentPair t.qd.hist = currentPair s.qd.hist ^^^ im.2
      ∧ (currentPair s'.qd.hist = currentPair s.qd.hist → s'.qd.vscroll = s.qd.vscroll →
          patternOf t'.qd.hist = patternOf t.qd.hist ∧ t'.qd.vscroll = t.qd.vscroll)

/-- Every EDGE step changes VSCROLL by exactly one, with wrap-around, by the closed form of 41_quadrature_decoder.md R171:
EDGE_A increments when the bits of the previous pair are equal and decrements otherwise, EDGE_B the other way round. -/
def Obligations.EveryEdgeCountsOne : Prop :=
  ∀ s : State,
    (∃ t, exec .edgeA s = .next t
      ∧ s8 t.qd.vscroll
          = wrap8 (s8 s.qd.vscroll + if s.qd.hist.getLsbD 1 = s.qd.hist.getLsbD 0 then 1 else -1))
    ∧ ∃ t, exec .edgeB s = .next t
      ∧ s8 t.qd.vscroll
          = wrap8 (s8 s.qd.vscroll + if s.qd.hist.getLsbD 1 = s.qd.hist.getLsbD 0 then -1 else 1)

/-- A bounce cancels: two edges on one line with none on the other between them leave VSCROLL and the current pair as
they were (41_quadrature_decoder.md R174). -/
def Obligations.BounceCancels : Prop :=
  ∀ (s : State) (i : Instr), i.isEdge = true →
    ∃ t, execAll [i, i] s = .next t ∧ t.qd.vscroll = s.qd.vscroll
      ∧ currentPair t.qd.hist = currentPair s.qd.hist ∧ t.qd.hscroll = s.qd.hscroll

/-- One full cycle counts four, with the sign given by which line leads, and returns to its pair
(41_quadrature_decoder.md R172). -/
def Obligations.FullCycleCountsFour : Prop :=
  ∀ s : State, currentPair s.qd.hist = 0b00 →
    (∃ t, execAll [.edgeA, .edgeB, .edgeA, .edgeB] s = .next t
      ∧ t.qd.vscroll = s.qd.vscroll + 4 ∧ currentPair t.qd.hist = 0b00)
    ∧ ∃ t, execAll [.edgeB, .edgeA, .edgeB, .edgeA] s = .next t
      ∧ t.qd.vscroll = s.qd.vscroll - 4 ∧ currentPair t.qd.hist = 0b00

/-- Inferred pair against actual pair (41_quadrature_decoder.md R173). Along any sequence of edges none of which is missed
the exclusive or of the two is constant; where it is 00 or 11 the decoder counts what the lines do, and where it is 01 or
10 it counts the opposite. -/
def Obligations.InferredPairDecidesTheSign : Prop :=
  ∀ (l : List Instr) (s : State) (actual : Pair), (∀ i ∈ l, i.isEdge = true) →
    ∃ t, execAll l s = .next t
      ∧ currentPair t.qd.hist ^^^ pairWalk actual l = currentPair s.qd.hist ^^^ actual
      ∧ (currentPair s.qd.hist ^^^ actual = 0b00 ∨ currentPair s.qd.hist ^^^ actual = 0b11 →
          t.qd.vscroll = u8 (s8 s.qd.vscroll + netCount actual l))
      ∧ (currentPair s.qd.hist ^^^ actual = 0b01 ∨ currentPair s.qd.hist ^^^ actual = 0b10 →
          t.qd.vscroll = u8 (s8 s.qd.vscroll - netCount actual l))

/-! ### DRAIN and the companion steps -/

/-- DRAIN completes in every state, BUSY or not, delivers the pair read, clears both accumulators and changes nothing else
(42_host_operations.md R190, R192; decisions D9, D17). -/
def Obligations.DrainDeliversAndClears : Prop :=
  ∀ s : State,
    exec .drain s = .next { s with
      qd := { hist := s.qd.hist, vscroll := 0, hscroll := 0 }
      obs := { s.obs with scroll := s.obs.scroll ++ [(s8 s.qd.vscroll, s8 s.qd.hscroll)] } }

/-- Every edge is counted in exactly one DRAIN result, or is still in VSCROLL: over any sequence of edges and drains the
vertical counts delivered and the final VSCROLL sum to the first VSCROLL, the increments less the decrements, modulo 256
(42_host_operations.md R191). -/
def Obligations.EveryCountIsInOneDrain : Prop :=
  ∀ (l : List Instr) (s : State), (∀ i ∈ l, i.onDecoder = true) →
    ∃ (t : State) (new : List (Int × Int)), execAll l s = .next t
      ∧ t.obs.scroll = s.obs.scroll ++ new ∧ new.length = l.count .drain
      ∧ u8 (verticalSum new + s8 t.qd.vscroll)
          = u8 (s8 s.qd.vscroll + netCount (currentPair s.qd.hist) l)

/-- HSCROLL stays 0 for the whole run, and no step but a DRAIN changes it from any value (10_state.md R25, decision
D26). -/
def Obligations.HorizontalScrollStaysZero : Prop :=
  ∀ s t : State, step s = .next t →
    (s.qd.hscroll = 0 → t.qd.hscroll = 0)
      ∧ (t.qd.hscroll ≠ s.qd.hscroll → t.qd.hscroll = 0 ∧ (s.fetch).1 = .run .drain)

/-- The handlers are the only writers of HIST (41_quadrature_decoder.md R176; 10_state.md R23). -/
def Obligations.OnlyHandlersWriteHistory : Prop :=
  ∀ s t : State, step s = .next t → t.qd.hist ≠ s.qd.hist →
    (s.fetch).1 = .run .edgeA ∨ (s.fetch).1 = .run .edgeB

/-- The Motion Accumulator is written by companion steps only, never by the interrupt path, by DRAIN or by the transport
(10_state.md R35; 60_exceptions.md R219). -/
def Obligations.OnlyCompanionStepsWriteMotion : Prop :=
  ∀ s t : State, step s = .next t → t.motion ≠ s.motion → ∃ h, (s.fetch).1 = .host h

/-- Accumulation wraps (42_host_operations.md R201): on integers and then narrowed, MY + RDATA and MX - RDATA are the
8-bit sum and difference of the bit patterns, whatever the operands; with RDATA = -128 the subtraction is MX + 128. A
companion step while BUSY = 0 and RDATA is valid writes that and changes nothing else (R194); that RDATA is still valid
after a later SYNC or WRITE or a first accumulation is the model's choice, log entries 2 and 9. -/
def Obligations.AccumulationWrapsLikeEightBitArithmetic : Prop :=
  (∀ c r : Byte,
      u8 (s8 c + s8 r) = c + r ∧ u8 (s8 c - s8 r) = c - r
        ∧ (s8 r = -128 → u8 (s8 c - s8 r) = u8 (s8 c + 128)))
    ∧ ∀ s : State, s.busy = false → s.rt.rdataValid = true →
        execHostStep .addY s = .next { s with motion := { s.motion with my := s.motion.my + s.rt.sr } }
          ∧ execHostStep .subX s = .next { s with motion := { s.motion with mx := s.motion.mx - s.rt.sr } }

/-- POLL (42_host_operations.md R194), as the machine runs it from any idle state: delta-Y is read and added to MY, then
delta-X is read and subtracted from MX, each the READ just ended; nothing of the decoder changes. The pin trace rests on
decisions D4, D5 and log entry 11, the input list that spells POLL (30_encoding.md R109, decision D25) on log entry 5. -/
def Obligations.PollAccumulatesYThenX : Prop :=
  ∀ (s : State) (rest : List Input), s.rt.seq = .idle → s.env.inputs = pollInputs ++ rest →
    ∃ t, Host.Core.run Sys2Proof.core 160 s = .next t
      ∧ t.motion.my = u8 (s8 s.motion.my + s8 (byteOfBits (s.env.draw 8).1))
      ∧ t.motion.mx = u8 (s8 s.motion.mx - s8 (byteOfBits ((s.env.draw 8).2.draw 8).1))
      ∧ t.obs.rdata = s.obs.rdata
          ++ [s8 (byteOfBits (s.env.draw 8).1), s8 (byteOfBits ((s.env.draw 8).2.draw 8).1)]
      ∧ t.obs.trace = s.obs.trace
          ++ pinTrace Config.addrDeltaY 0 readSteps (s.env.draw 8).1
          ++ pinTrace Config.addrDeltaX 0 readSteps ((s.env.draw 8).2.draw 8).1
      ∧ t.qd = s.qd ∧ t.busy = false ∧ t.env.inputs = rest
      ∧ t.obs.scroll = s.obs.scroll ∧ t.obs.motion = s.obs.motion

/-- MDRAIN delivers MX and MY, clears both and changes nothing else (42_host_operations.md R196); that it needs BUSY = 0
is log entry 9. -/
def Obligations.MotionDrainDeliversAndClears : Prop :=
  ∀ s : State, s.busy = false →
    execHostStep .mdrain s = .next { s with
      motion := { mx := 0, my := 0 }
      obs := { s.obs with motion := s.obs.motion ++ [(s8 s.motion.mx, s8 s.motion.my)] } }

/-- EMIT is MDRAIN and DRAIN for one report: it delivers all four accumulators and leaves all four zero
(42_host_operations.md R197). -/
def Obligations.EmitDeliversAllFourAccumulators : Prop :=
  ∀ (s : State) (rest : List Input), s.rt.seq = .idle → s.env.inputs = emitInputs ++ rest →
    ∃ t, Host.Core.run Sys2Proof.core 2 s = .next t
      ∧ t.obs.motion = s.obs.motion ++ [(s8 s.motion.mx, s8 s.motion.my)]
      ∧ t.obs.scroll = s.obs.scroll ++ [(s8 s.qd.vscroll, s8 s.qd.hscroll)]
      ∧ t.motion.mx = 0 ∧ t.motion.my = 0 ∧ t.qd.vscroll = 0 ∧ t.qd.hscroll = 0
      ∧ t.qd.hist = s.qd.hist ∧ t.rt = s.rt ∧ t.env.inputs = rest

/-! ### The two units together -/

/-- A step on the decoder that falls between two micro-steps commutes with them: in either order the same state results
(20_memory.md R74; decision D17). -/
def Obligations.DecoderStepsCommuteWithMicroSteps : Prop :=
  ∀ (s : State) (i : Instr), i.onDecoder = true →
    ∃ t u, exec i s = .next t ∧ exec i s.microStep = .next u ∧ t.microStep = u

/-- Any interleaving of edges and drains with the micro-steps of an operation is their product: the transport, the pin
trace and the delivered RDATA are those of the micro-steps alone, and the decoder and the drained pairs are those of the
edges and drains alone (20_memory.md R74; 42_host_operations.md R192; decision D17). An instant in which two operations on the decoder are due is
no part of it: `OperationsOfAnInstantRunInSomeOrder`. -/
def Obligations.InterleavingIsTheProductOfTheUnits : Prop :=
  ∀ (l : List Input) (s : State) (rest : List Input),
    s.env.inputs = l ++ rest → (∀ x ∈ l, x.isQuiet = true) →
      ∃ t u, Host.Core.run Sys2Proof.core l.length s = .next t
        ∧ execAll (l.flatMap Input.decoderOps) s = .next u
        ∧ t.rt = (s.microSteps (l.count .tick)).rt
        ∧ t.obs.trace = (s.microSteps (l.count .tick)).obs.trace
        ∧ t.obs.rdata = (s.microSteps (l.count .tick)).obs.rdata
        ∧ t.env.samples = (s.microSteps (l.count .tick)).env.samples
        ∧ t.qd = u.qd ∧ t.obs.scroll = u.obs.scroll
        ∧ t.motion = s.motion ∧ t.env.inputs = rest

/-! ### RDATA, and the relations every step keeps -/

/-- RDATA is valid from the end of a READ until the next READ begins (10_state.md R22): a valid RDATA stays valid and
unchanged by every step but the acceptance of a READ, which ends its validity, and it becomes valid by the closing
micro-step of a READ only, with the signed reading of SR. That it ends at acceptance is the model's choice, log entry 2. -/
def Obligations.RdataIsValidFromOneReadToTheNext : Prop :=
  ∀ s t : State, s.rt.consistent = true → step s = .next t →
    (∀ n, s.rdata = some n →
      ((∃ addr wdata, (s.fetch).1 = .run (.read addr wdata)) ∧ s.busy = false → t.rdata = none ∧ t.rt.seq = .read 0)
        ∧ (¬ ((∃ addr wdata, (s.fetch).1 = .run (.read addr wdata)) ∧ s.busy = false) → t.rdata = some n))
    ∧ (∀ n, s.rdata = none → t.rdata = some n →
        (s.fetch).1 = .micro ∧ s.rt.seq = .read 77 ∧ n = s8 s.rt.sr)

/-- An accumulation while no RDATA is valid and BUSY = 0 completes with a free value of RDATA, the next of its kind, and
changes nothing else but the count of such values. The spec gives RDATA no value there (10_state.md R22, R39): the model's
choice, log entry 16. -/
def Obligations.AccumulationWithoutAReadTakesAFreeValue : Prop :=
  ∀ s : State, s.busy = false → s.rt.rdataValid = false →
    execHostStep .addY s = .next { s with
        motion := { s.motion with my := s.motion.my + Config.unreadRdata s.env.unreadNo }
        env := { s.env with unreadNo := s.env.unreadNo + 1 } }
      ∧ execHostStep .subX s = .next { s with
        motion := { s.motion with mx := s.motion.mx - Config.unreadRdata s.env.unreadNo }
        env := { s.env with unreadNo := s.env.unreadNo + 1 } }

/-- Every step keeps two states alike: the command latch and SR may differ where no rule reads them, all else is equal,
and what a step does with one it does with the other (10_state.md R39). So the values log entry 1 names at reset never
reach anything outside, at any step of any run. -/
def Obligations.StepsKeepStatesAlike : Prop :=
  ∀ s t : State, s.alike t →
    (∀ s', step s = .next s' → ∃ t', step t = .next t' ∧ s'.alike t')
      ∧ ∀ r, step s = .refused r → step t = .refused r

/-- Every step keeps the exclusive or of the inferred pair and the actual pair, the actual pair moving with the edge the
step takes (41_quadrature_decoder.md R173). -/
def Obligations.StepsKeepTheInferredPairsDifference : Prop :=
  ∀ (s t : State) (actual : Pair), step s = .next t →
    currentPair t.qd.hist ^^^ (s.fetch).1.pairAfter actual = currentPair s.qd.hist ^^^ actual

/-- Every step conserves the vertical count: what DRAIN has delivered so far and VSCROLL together change by the unit of the
edge the step takes, and by nothing where it takes none, modulo 256 (42_host_operations.md R191;
41_quadrature_decoder.md R171; the record of what was delivered is log entry 11). -/
def Obligations.StepsConserveTheVerticalCount : Prop :=
  ∀ s t : State, step s = .next t →
    u8 (verticalSum t.obs.scroll + s8 t.qd.vscroll)
      = u8 (verticalSum s.obs.scroll + s8 s.qd.vscroll + (s.fetch).1.unit (currentPair s.qd.hist))
end

