-- ==== Sys2Proof/Laws/State.lean ====
section
/-! SUPPORT. One lemma per part of State per update, so that no later proof unfolds a record update. -/

namespace Sys2Proof.Machine

section
variable (s : State) (e : PinEvent)
@[simp] theorem State.log_rt : (s.log e).rt = s.rt := rfl
@[simp] theorem State.log_qd : (s.log e).qd = s.qd := rfl
@[simp] theorem State.log_motion : (s.log e).motion = s.motion := rfl
@[simp] theorem State.log_env : (s.log e).env = s.env := rfl
@[simp] theorem State.log_obs : (s.log e).obs = { s.obs with trace := s.obs.trace ++ [e] } := rfl
end

section
variable (s : State) (v : Level)
@[simp] theorem State.setNcs_rt : (s.setNcs v).rt = { s.rt with ncs := v } := rfl
@[simp] theorem State.setNcs_qd : (s.setNcs v).qd = s.qd := rfl
@[simp] theorem State.setNcs_motion : (s.setNcs v).motion = s.motion := rfl
@[simp] theorem State.setNcs_env : (s.setNcs v).env = s.env := rfl
@[simp] theorem State.setNcs_obs : (s.setNcs v).obs = { s.obs with trace := s.obs.trace ++ [.ncs v] } := rfl
end

section
variable (s : State) (v : Level)
@[simp] theorem State.setSclk_rt : (s.setSclk v).rt = { s.rt with sclk := v } := rfl
@[simp] theorem State.setSclk_qd : (s.setSclk v).qd = s.qd := rfl
@[simp] theorem State.setSclk_motion : (s.setSclk v).motion = s.motion := rfl
@[simp] theorem State.setSclk_env : (s.setSclk v).env = s.env := rfl
@[simp] theorem State.setSclk_obs : (s.setSclk v).obs = { s.obs with trace := s.obs.trace ++ [.sclk v] } := rfl
end

section
variable (s : State) (v : Level)
@[simp] theorem State.setSdioOut_rt : (s.setSdioOut v).rt = { s.rt with sdioOut := v } := rfl
@[simp] theorem State.setSdioOut_qd : (s.setSdioOut v).qd = s.qd := rfl
@[simp] theorem State.setSdioOut_motion : (s.setSdioOut v).motion = s.motion := rfl
@[simp] theorem State.setSdioOut_env : (s.setSdioOut v).env = s.env := rfl
@[simp] theorem State.setSdioOut_obs :
    (s.setSdioOut v).obs = { s.obs with trace := s.obs.trace ++ [.sdioOut v] } := rfl
end

section
variable (s : State) (v : Level)
@[simp] theorem State.setSdioOe_rt : (s.setSdioOe v).rt = { s.rt with sdioOe := v } := rfl
@[simp] theorem State.setSdioOe_qd : (s.setSdioOe v).qd = s.qd := rfl
@[simp] theorem State.setSdioOe_motion : (s.setSdioOe v).motion = s.motion := rfl
@[simp] theorem State.setSdioOe_env : (s.setSdioOe v).env = s.env := rfl
@[simp] theorem State.setSdioOe_obs : (s.setSdioOe v).obs = { s.obs with trace := s.obs.trace ++ [.sdioOe v] } := rfl
end

section
variable (s : State) (v : Byte)
@[simp] theorem State.setSr_rt : (s.setSr v).rt = { s.rt with sr := v } := rfl
@[simp] theorem State.setSr_qd : (s.setSr v).qd = s.qd := rfl
@[simp] theorem State.setSr_motion : (s.setSr v).motion = s.motion := rfl
@[simp] theorem State.setSr_env : (s.setSr v).env = s.env := rfl
@[simp] theorem State.setSr_obs : (s.setSr v).obs = s.obs := rfl
end

section
variable (s : State) (q : SeqPos)
@[simp] theorem State.setSeq_rt : (s.setSeq q).rt = { s.rt with seq := q } := rfl
@[simp] theorem State.setSeq_qd : (s.setSeq q).qd = s.qd := rfl
@[simp] theorem State.setSeq_motion : (s.setSeq q).motion = s.motion := rfl
@[simp] theorem State.setSeq_env : (s.setSeq q).env = s.env := rfl
@[simp] theorem State.setSeq_obs : (s.setSeq q).obs = s.obs := rfl
end

section
variable (s : State)
@[simp] theorem State.sampleShift_rt : s.sampleShift.rt = { s.rt with sr := shiftBit s.rt.sr s.sdioLine } := rfl
@[simp] theorem State.sampleShift_qd : s.sampleShift.qd = s.qd := rfl
@[simp] theorem State.sampleShift_motion : s.sampleShift.motion = s.motion := rfl
@[simp] theorem State.sampleShift_env : s.sampleShift.env = (if s.rt.sdioOe then s.env else s.env.taken) := rfl
@[simp] theorem State.sampleShift_obs :
    s.sampleShift.obs = { s.obs with trace := s.obs.trace ++ [.sample s.sdioLine] } := rfl
end

section
variable (s : State)
@[simp] theorem State.deliverRdata_rt : s.deliverRdata.rt = { s.rt with rdataValid := true } := rfl
@[simp] theorem State.deliverRdata_qd : s.deliverRdata.qd = s.qd := rfl
@[simp] theorem State.deliverRdata_motion : s.deliverRdata.motion = s.motion := rfl
@[simp] theorem State.deliverRdata_env : s.deliverRdata.env = s.env := rfl
@[simp] theorem State.deliverRdata_obs :
    s.deliverRdata.obs = { s.obs with rdata := s.obs.rdata ++ [s8 s.rt.sr] } := rfl
end

section
variable (s : State) (op : BitVec 2) (addr wdata : Byte) (q : SeqPos) (valid : Bool)
@[simp] theorem State.latch_rt :
    (s.latch op addr wdata q valid).rt = { s.rt with op := op, addr := addr, wdata := wdata, seq := q, rdataValid := valid } := rfl
@[simp] theorem State.latch_qd : (s.latch op addr wdata q valid).qd = s.qd := rfl
@[simp] theorem State.latch_motion : (s.latch op addr wdata q valid).motion = s.motion := rfl
@[simp] theorem State.latch_env : (s.latch op addr wdata q valid).env = s.env := rfl
@[simp] theorem State.latch_obs : (s.latch op addr wdata q valid).obs = s.obs := rfl
end

section
variable (s : State)
@[simp] theorem State.drainScroll_rt : s.drainScroll.rt = s.rt := rfl
@[simp] theorem State.drainScroll_qd : s.drainScroll.qd = { s.qd with vscroll := 0, hscroll := 0 } := rfl
@[simp] theorem State.drainScroll_motion : s.drainScroll.motion = s.motion := rfl
@[simp] theorem State.drainScroll_env : s.drainScroll.env = s.env := rfl
@[simp] theorem State.drainScroll_obs :
    s.drainScroll.obs = { s.obs with scroll := s.obs.scroll ++ [(s8 s.qd.vscroll, s8 s.qd.hscroll)] } := rfl
end

section
variable (s : State) (n : Int)
@[simp] theorem State.addMy_rt : (s.addMy n).rt = s.rt := rfl
@[simp] theorem State.addMy_qd : (s.addMy n).qd = s.qd := rfl
@[simp] theorem State.addMy_motion : (s.addMy n).motion = { s.motion with my := stepCounter s.motion.my n } := rfl
@[simp] theorem State.addMy_env : (s.addMy n).env = s.env := rfl
@[simp] theorem State.addMy_obs : (s.addMy n).obs = s.obs := rfl
end

section
variable (s : State) (n : Int)
@[simp] theorem State.subMx_rt : (s.subMx n).rt = s.rt := rfl
@[simp] theorem State.subMx_qd : (s.subMx n).qd = s.qd := rfl
@[simp] theorem State.subMx_motion : (s.subMx n).motion = { s.motion with mx := stepCounter s.motion.mx (-n) } := rfl
@[simp] theorem State.subMx_env : (s.subMx n).env = s.env := rfl
@[simp] theorem State.subMx_obs : (s.subMx n).obs = s.obs := rfl
end

section
variable (s : State)
@[simp] theorem State.drainMotion_rt : s.drainMotion.rt = s.rt := rfl
@[simp] theorem State.drainMotion_qd : s.drainMotion.qd = s.qd := rfl
@[simp] theorem State.drainMotion_motion : s.drainMotion.motion = { mx := 0, my := 0 } := rfl
@[simp] theorem State.drainMotion_env : s.drainMotion.env = s.env := rfl
@[simp] theorem State.drainMotion_obs :
    s.drainMotion.obs = { s.obs with motion := s.obs.motion ++ [(s8 s.motion.mx, s8 s.motion.my)] } := rfl
end

section
variable (s : State) (l : List Input)
@[simp] theorem State.withInputs_rt : (s.withInputs l).rt = s.rt := rfl
@[simp] theorem State.withInputs_qd : (s.withInputs l).qd = s.qd := rfl
@[simp] theorem State.withInputs_motion : (s.withInputs l).motion = s.motion := rfl
@[simp] theorem State.withInputs_env : (s.withInputs l).env = { s.env with inputs := l } := rfl
@[simp] theorem State.withInputs_obs : (s.withInputs l).obs = s.obs := rfl
end

section
variable (s : State)
@[simp] theorem State.drawOrder_rt : s.drawOrder.rt = s.rt := rfl
@[simp] theorem State.drawOrder_qd : s.drawOrder.qd = s.qd := rfl
@[simp] theorem State.drawOrder_motion : s.drawOrder.motion = s.motion := rfl
@[simp] theorem State.drawOrder_env : s.drawOrder.env = { s.env with orderNo := s.env.orderNo + 1 } := rfl
@[simp] theorem State.drawOrder_obs : s.drawOrder.obs = s.obs := rfl
end

section
variable (s : State)
@[simp] theorem State.drawUnread_rt : s.drawUnread.rt = s.rt := rfl
@[simp] theorem State.drawUnread_qd : s.drawUnread.qd = s.qd := rfl
@[simp] theorem State.drawUnread_motion : s.drawUnread.motion = s.motion := rfl
@[simp] theorem State.drawUnread_env : s.drawUnread.env = { s.env with unreadNo := s.env.unreadNo + 1 } := rfl
@[simp] theorem State.drawUnread_obs : s.drawUnread.obs = s.obs := rfl
end

section
variable (s : State) (m : Pair) (c : Pattern → Count)
@[simp] theorem State.edge_rt : (s.edge m c).rt = s.rt := rfl
@[simp] theorem State.edge_qd : (s.edge m c).qd = { s.qd with
      hist := shiftPair s.qd.hist (currentPair s.qd.hist ^^^ m)
      vscroll := countStep s.qd.vscroll (c (patternOf (shiftPair s.qd.hist (currentPair s.qd.hist ^^^ m)))) } := rfl
@[simp] theorem State.edge_motion : (s.edge m c).motion = s.motion := rfl
@[simp] theorem State.edge_env : (s.edge m c).env = s.env := rfl
@[simp] theorem State.edge_obs : (s.edge m c).obs = s.obs := rfl
end

end Sys2Proof.Machine
end

