-- ==== Sys2Proof/Laws/Ops.lean ====
section
/-! SUPPORT. What each shared operation can do, said once: signed readings, presentation of a command, micro-steps, the
handlers, fetching, and the inversion of `exec` and `step`. -/

namespace Sys2Proof.Machine

/-! ### Signed readings -/

theorem s8_eq_toInt (p : Byte) : s8 p = p.toInt := by
  have h := p.isLt
  unfold s8
  rw [BitVec.toInt_eq_toNat_cond]
  split <;> split <;> omega

@[simp] theorem u8_s8 (p : Byte) : u8 (s8 p) = p := by
  rw [s8_eq_toInt, u8, BitVec.ofInt_toInt]

theorem u8_add (m n : Int) : u8 (m + n) = u8 m + u8 n := BitVec.ofInt_add ..

theorem stepCounter_eq (c : Byte) (n : Int) : stepCounter c n = c + u8 n := by
  rw [stepCounter, u8_add, u8_s8]

theorem s8_u8_eq_wrap8 (n : Int) : s8 (u8 n) = wrap8 n := rfl

/-! ### Presentation of a command -/

theorem busy_eq_false_iff (s : State) : s.busy = false ↔ s.rt.seq = .idle := by
  simp [State.busy]

theorem present_of_idle {s : State} (h : s.rt.seq = .idle) (op : BitVec 2) (addr wdata : Byte) (q : SeqPos)
    (valid : Bool) : s.present op addr wdata q valid = s.latch op addr wdata q valid := by
  simp [State.present, State.busy, h]

theorem present_of_busy {s : State} (h : s.busy = true) (op : BitVec 2) (addr wdata : Byte) (q : SeqPos)
    (valid : Bool) : s.present op addr wdata q valid = s := by
  simp [State.present, h]

/-! ### Micro-steps -/

/-- Every position but IDLE has a micro-step. -/
theorem microStep?_isSome {q : SeqPos} (h : q ≠ .idle) : ∃ m, q.microStep? = some m := by
  cases q with
  | idle => exact absurd rfl h
  | sync k => exact ⟨syncSteps[k.val]'(by rw [syncSteps_length]; exact k.isLt), List.getElem?_eq_getElem _⟩
  | read k => exact ⟨readSteps[k.val]'(by rw [readSteps_length]; exact k.isLt), List.getElem?_eq_getElem _⟩
  | write k => exact ⟨writeSteps[k.val]'(by rw [writeSteps_length]; exact k.isLt), List.getElem?_eq_getElem _⟩

theorem microStep_of_idle {s : State} (h : s.rt.seq = .idle) : s.microStep = s := by
  simp [State.microStep, h, SeqPos.microStep?]

theorem microStep_of_some {s : State} {m : MicroStep} (h : s.rt.seq.microStep? = some m) :
    s.microStep = (s.perform m).setSeq s.rt.seq.advance := by
  simp [State.microStep, h]

section
variable (s : State) (m : MicroStep)

@[simp] theorem perform_qd : (s.perform m).qd = s.qd := by cases m <;> rfl
@[simp] theorem perform_motion : (s.perform m).motion = s.motion := by cases m <;> rfl
@[simp] theorem perform_seq : (s.perform m).rt.seq = s.rt.seq := by cases m <;> rfl
@[simp] theorem perform_op : (s.perform m).rt.op = s.rt.op := by cases m <;> rfl
@[simp] theorem perform_addr : (s.perform m).rt.addr = s.rt.addr := by cases m <;> rfl
@[simp] theorem perform_wdata : (s.perform m).rt.wdata = s.rt.wdata := by cases m <;> rfl
@[simp] theorem perform_scroll : (s.perform m).obs.scroll = s.obs.scroll := by cases m <;> rfl
@[simp] theorem perform_obsMotion : (s.perform m).obs.motion = s.obs.motion := by cases m <;> rfl

@[simp] theorem taken_inputs (e : Environment) : e.taken.inputs = e.inputs := by
  unfold Environment.taken; split <;> rfl

@[simp] theorem taken_orderNo (e : Environment) : e.taken.orderNo = e.orderNo := by
  unfold Environment.taken; split <;> rfl

@[simp] theorem taken_unreadNo (e : Environment) : e.taken.unreadNo = e.unreadNo := by
  unfold Environment.taken; split <;> rfl

@[simp] theorem perform_inputs : (s.perform m).env.inputs = s.env.inputs := by
  cases m <;> first | rfl | (simp only [State.perform, State.sampleShift_env]; split <;> simp)

@[simp] theorem perform_orderNo : (s.perform m).env.orderNo = s.env.orderNo := by
  cases m <;> first | rfl | (simp only [State.perform, State.sampleShift_env]; split <;> simp)

@[simp] theorem perform_unreadNo : (s.perform m).env.unreadNo = s.env.unreadNo := by
  cases m <;> first | rfl | (simp only [State.perform, State.sampleShift_env]; split <;> simp)

end

/-- What a micro-step leaves as it was (20_memory.md R74): the decoder, the Motion Accumulator, the latch, the inputs,
the order choices, the free values of RDATA and the deliveries of DRAIN and MDRAIN. -/
theorem microStep_frame (s : State) :
    s.microStep.qd = s.qd ∧ s.microStep.motion = s.motion
      ∧ s.microStep.rt.op = s.rt.op ∧ s.microStep.rt.addr = s.rt.addr ∧ s.microStep.rt.wdata = s.rt.wdata
      ∧ s.microStep.env.inputs = s.env.inputs ∧ s.microStep.env.orderNo = s.env.orderNo
      ∧ s.microStep.env.unreadNo = s.env.unreadNo
      ∧ s.microStep.obs.scroll = s.obs.scroll ∧ s.microStep.obs.motion = s.obs.motion := by
  unfold State.microStep
  split <;> simp

theorem microStep_seq (s : State) : s.microStep.rt.seq = s.rt.seq.advance := by
  by_cases h : s.rt.seq = .idle
  · rw [microStep_of_idle h, h]; rfl
  · obtain ⟨m, hm⟩ := microStep?_isSome h
    rw [microStep_of_some hm]; rfl

theorem microSteps_add (s : State) (m n : Nat) : s.microSteps (m + n) = (s.microSteps m).microSteps n := by
  induction m generalizing s with
  | zero => simp [State.microSteps]
  | succ m ih => rw [Nat.succ_add]; exact ih s.microStep

/-! ### The handlers -/

/-- What a handler leaves as it was (20_memory.md R74): everything but HIST and VSCROLL. -/
theorem edge_frame (s : State) (mask : Pair) (classify : Pattern → Count) :
    (s.edge mask classify).rt = s.rt ∧ (s.edge mask classify).motion = s.motion
      ∧ (s.edge mask classify).env = s.env ∧ (s.edge mask classify).obs = s.obs
      ∧ (s.edge mask classify).qd.hscroll = s.qd.hscroll :=
  ⟨rfl, rfl, rfl, rfl, rfl⟩

/-! ### Fetching -/

/-- Fetching changes nothing but the inputs still to come and the count of order choices. -/
theorem fetch_frame {s t : State} {a : Action} (h : s.fetch = (a, t)) :
    ∃ l n, t = { s with env := { s.env with inputs := l, orderNo := n } } := by
  unfold State.fetch at h
  split at h
  · cases h; exact ⟨s.env.inputs, s.env.orderNo, rfl⟩
  · cases h; exact ⟨_, s.env.orderNo, rfl⟩
  · split at h <;> (cases h; exact ⟨_, s.env.orderNo, rfl⟩)
  · unfold State.fetchPorts at h
    split at h <;> (cases h; exact ⟨_, _, rfl⟩)
  · cases h; exact ⟨_, s.env.orderNo, rfl⟩

/-! ### Inversions -/

/-- Everything `exec` can do. It always answers a next state. -/
theorem exec_cases (i : Instr) (s : State) :
    (∃ addr wdata, i = .sync addr wdata
        ∧ exec i s = .next (s.present opSync addr wdata (.sync 0) s.rt.rdataValid))
      ∨ (∃ addr wdata, i = .read addr wdata ∧ exec i s = .next (s.present opRead addr wdata (.read 0) false))
      ∨ (∃ addr wdata, i = .write addr wdata
        ∧ exec i s = .next (s.present opWrite addr wdata (.write 0) s.rt.rdataValid))
      ∨ (i = .edgeA ∧ exec i s = .next (s.edge maskA classifyA))
      ∨ (i = .edgeB ∧ exec i s = .next (s.edge maskB classifyB))
      ∨ (i = .drain ∧ exec i s = .next s.drainScroll) := by
  cases i with
  | sync addr wdata => exact .inl ⟨addr, wdata, rfl, rfl⟩
  | read addr wdata => exact .inr (.inl ⟨addr, wdata, rfl, rfl⟩)
  | write addr wdata => exact .inr (.inr (.inl ⟨addr, wdata, rfl, rfl⟩))
  | edgeA => exact .inr (.inr (.inr (.inl ⟨rfl, rfl⟩)))
  | edgeB => exact .inr (.inr (.inr (.inr (.inl ⟨rfl, rfl⟩))))
  | drain => exact .inr (.inr (.inr (.inr (.inr ⟨rfl, rfl⟩))))

/-- What an accumulation adds, and the state it adds it to: RDATA where it is valid, else the next free value. -/
theorem accumulate_of_idle {s : State} (h : s.rt.seq = .idle) (add : State → Int → State) :
    s.accumulate add
      = .next (if s.rt.rdataValid then add s (s8 s.rt.sr)
          else add s.drawUnread (s8 (Config.unreadRdata s.env.unreadNo))) := by
  rw [← busy_eq_false_iff] at h
  cases hv : s.rt.rdataValid <;> simp [State.accumulate, State.rdata, h, hv]

/-- Everything a companion step can do while BUSY = 0: it always answers a next state. -/
theorem execHostStep_of_idle {s : State} (h : s.rt.seq = .idle) (k : HostStep) :
    execHostStep k s
      = .next (match k with
        | .addY => if s.rt.rdataValid then s.addMy (s8 s.rt.sr)
            else s.drawUnread.addMy (s8 (Config.unreadRdata s.env.unreadNo))
        | .subX => if s.rt.rdataValid then s.subMx (s8 s.rt.sr)
            else s.drawUnread.subMx (s8 (Config.unreadRdata s.env.unreadNo))
        | .mdrain => s.drainMotion) := by
  cases k with
  | addY => exact accumulate_of_idle h _
  | subX => exact accumulate_of_idle h _
  | mdrain => simp [execHostStep, (busy_eq_false_iff s).2 h]

/-- While BUSY = 1 HOST takes no step. -/
theorem execHostStep_of_busy {s : State} (h : s.busy = true) (k : HostStep) :
    execHostStep k s = .refused .hostBlocked := by
  cases k <;> simp [execHostStep, State.accumulate, h]

/-- Everything a companion step that answers a next state can do. -/
theorem execHostStep_cases {k : HostStep} {s t : State} (ht : execHostStep k s = .next t) :
    s.rt.seq = .idle
      ∧ ((k = .addY ∧ s.rt.rdataValid = true ∧ t = s.addMy (s8 s.rt.sr))
        ∨ (k = .addY ∧ s.rt.rdataValid = false
          ∧ t = s.drawUnread.addMy (s8 (Config.unreadRdata s.env.unreadNo)))
        ∨ (k = .subX ∧ s.rt.rdataValid = true ∧ t = s.subMx (s8 s.rt.sr))
        ∨ (k = .subX ∧ s.rt.rdataValid = false
          ∧ t = s.drawUnread.subMx (s8 (Config.unreadRdata s.env.unreadNo)))
        ∨ (k = .mdrain ∧ t = s.drainMotion)) := by
  cases hb : s.busy with
  | true => rw [execHostStep_of_busy hb] at ht; cases ht
  | false =>
    have hi := (busy_eq_false_iff s).1 hb
    refine ⟨hi, ?_⟩
    rw [execHostStep_of_idle hi] at ht
    cases ht
    cases k <;> cases hv : s.rt.rdataValid <;> simp

/-- Everything a step that answers a next state can do, from a state that differs from the given one in the inputs
still to come and the count of order choices only. -/
theorem step_cases {s t : State} (h : step s = .next t) :
    ∃ l n u, u = { s with env := { s.env with inputs := l, orderNo := n } }
      ∧ (s.fetch = (.micro, u) ∧ t = u.microStep
        ∨ (∃ i, s.fetch = (.run i, u) ∧ exec i u = .next t)
        ∨ (∃ k, s.fetch = (.host k, u) ∧ execHostStep k u = .next t)
        ∨ s.fetch = (.nothing, u) ∧ t = u) := by
  unfold step at h
  split at h <;> rename_i u hf <;> obtain ⟨l, n, hu⟩ := fetch_frame hf <;> refine ⟨l, n, u, hu, ?_⟩
  · cases h; exact .inl ⟨hf, rfl⟩
  · exact .inr (.inl ⟨_, hf, h⟩)
  · exact .inr (.inr (.inl ⟨_, hf, h⟩))
  · cases h; exact .inr (.inr (.inr ⟨hf, rfl⟩))

end Sys2Proof.Machine
end

