-- ==== Sys2Proof/Laws/PerInstr.lean ====
section
/-! SUPPORT. Per operation: its encoded word is one that its row of the opcode table matches (30_encoding.md R100, R101,
R102). -/

namespace Sys2Proof.Laws.MatchesRow

/-- The word of an operation, masked by its row's mask, is its row's match. -/
def Statement : Instr → Prop
  | .sync addr wdata => ∃ w, encode (.sync addr wdata) = .cmd w ∧ w &&& 0x30000 = 0x00000
  | .read addr wdata => ∃ w, encode (.read addr wdata) = .cmd w ∧ w &&& 0x30000 = 0x10000
  | .write addr wdata => ∃ w, encode (.write addr wdata) = .cmd w ∧ w &&& 0x30000 = 0x20000
  | .edgeA => ∃ w, encode .edgeA = .evt w ∧ w &&& 0x2 = 0x2
  | .edgeB => ∃ w, encode .edgeB = .evt w ∧ w &&& 0x1 = 0x1
  | .drain => ∃ w, encode .drain = .drn w ∧ w &&& 0x1 = 0x1

/-- The mask of the CMD rows keeps OP and clears the other fields. -/
theorem cmdWord_and_mask (op : BitVec 2) (addr wdata : Byte) :
    cmdWord op addr wdata &&& 0x30000 = cmdWord op 0 0 := by
  have h : (0x30000 : BitVec 18) = cmdWord 3 0 0 := by decide
  rw [h, cmdWord, cmdWord, cmdWord, BitVec.and_append, BitVec.and_append]
  have h3 : (3 : BitVec 2) = BitVec.allOnes 2 := by decide
  have h0 (x : Byte) : x &&& 0 = 0 := by simp
  simp only [h3, h0, BitVec.and_allOnes]

theorem sync (addr wdata : Byte) : Statement (.sync addr wdata) :=
  ⟨_, rfl, by rw [cmdWord_and_mask]; decide⟩
theorem read (addr wdata : Byte) : Statement (.read addr wdata) :=
  ⟨_, rfl, by rw [cmdWord_and_mask]; decide⟩
theorem write (addr wdata : Byte) : Statement (.write addr wdata) :=
  ⟨_, rfl, by rw [cmdWord_and_mask]; decide⟩
theorem edgeA : Statement .edgeA := ⟨_, rfl, by decide⟩
theorem edgeB : Statement .edgeB := ⟨_, rfl, by decide⟩
theorem drain : Statement .drain := ⟨_, rfl, by decide⟩

end Sys2Proof.Laws.MatchesRow
end

