-- ==== Sys2Proof/Tests/Slice0.lean ====
section
/-! SUPPORT. Tests with expected values from spec/95_test_vectors.md, the words of the encoding tables, ill-formed terms
each check refuses, and a state that meets the hypotheses of each statement. -/

namespace Sys2Proof.Machine.Test

/-! ### Ill-formed terms -/

theorem test_reserved_command_is_ill_formed : (PortWord.cmd 0x30000).wellFormed = false := by decide
theorem test_no_event_is_ill_formed : (PortWord.evt 0b00).wellFormed = false := by decide
theorem test_no_strobe_is_ill_formed : (PortWord.drn 0).wellFormed = false := by decide
theorem test_command_is_well_formed : (PortWord.cmd 0x2FFFF).wellFormed = true := by decide
theorem test_sync_with_address_is_not_canonical : (Instr.sync 0x01 0x00).canonical = false := by decide
theorem test_sync_with_data_is_not_canonical : (Instr.sync 0x00 0x80).canonical = false := by decide
theorem test_read_with_data_is_not_canonical : (Instr.read 0x15 0xA7).canonical = false := by decide
theorem test_ignored_bits_are_well_formed : (Instr.read 0x15 0xA7).wellFormed = true := by decide

/-! ### Words written out from 30_encoding.md R100, R101, R102 (OP, then ADDR, then WDATA; line A, then line B) -/

theorem test_decode_sync : decodeTableWord 24 0b00_00000000_00000000 = some (.sync 0x00 0x00) := by decide
theorem test_decode_read : decodeTableWord 24 0b01_00010101_00000000 = some (.read 0x15 0x00) := by decide
theorem test_decode_write : decodeTableWord 24 0b10_00101100_01011010 = some (.write 0x2C 0x5A) := by decide
theorem test_decode_edgeA : decodeTableWord 8 0b10 = some .edgeA := by decide
theorem test_decode_edgeB : decodeTableWord 8 0b01 = some .edgeB := by decide
theorem test_decode_drain : decodeTableWord 1 0b1 = some .drain := by decide
theorem test_decode_reserved : decode (.cmd 0b11_00000000_00000000) = .error .reservedOp := by decide
theorem test_decode_both_edges : decode (.evt 0b11) = .ok [.edgeA, .edgeB] := by decide
/-- T2: the low byte of a READ is kept as the unused latch field. -/
theorem test_decode_read_ignored_bits : decodeTableWord 24 0x115A7 = some (.read 0x15 0xA7) := by decide

/-! ### One step on a small state -/

/-- The reset state with the decoder's registers given. -/
def decoderAt (hist vscroll hscroll : Byte) : State :=
  { State.reset with qd := { hist := hist, vscroll := vscroll, hscroll := hscroll } }

/-- The reset state with a position and latched operands given. -/
def transportAt (q : SeqPos) (addr wdata : Byte) : State :=
  { State.reset with rt := { Transport.reset with seq := q, addr := addr, wdata := wdata } }

/-- The state after an outcome, if it is a next state. -/
def after (o : Host.Outcome State Fault Refusal) : Option State :=
  match o with
  | .next s => some s
  | .fault _ => none
  | .refused _ => none

/-- Q9.1: the high bits of HIST are shifted out. -/
theorem test_edgeA_shifts : (after (exec .edgeA (decoderAt 0xE7 0 0))).map (·.qd) = some ⟨0x9D, 1, 0⟩ := by decide
/-- Q10.1: VSCROLL wraps. -/
theorem test_edgeA_wraps : (after (exec .edgeA (decoderAt 0x00 127 0))).map (·.qd) = some ⟨0x02, 0x80, 0⟩ := by decide
/-- Q9.5: from -3 to -2. -/
theorem test_edgeB_counts_up : (after (exec .edgeB (decoderAt 0xAA 0xFD 0))).map (·.qd) = some ⟨0xAB, 0xFE, 0⟩ := by
  decide
/-- Q10.2: VSCROLL wraps downward. -/
theorem test_edgeB_wraps : (after (exec .edgeB (decoderAt 0x00 0x80 0))).map (·.qd) = some ⟨0x01, 0x7F, 0⟩ := by decide
/-- H1: from VSCROLL = 2, HSCROLL = -7 DRAIN delivers (2, -7). -/
theorem test_drain_delivers : (after (exec .drain (decoderAt 0xB4 2 0xF9))).map (·.obs.scroll) = some [(2, -7)] := by
  decide
/-- H1.1: HIST is not touched. -/
theorem test_drain_keeps_history : (after (exec .drain (decoderAt 0xB4 4 0))).map (·.qd) = some ⟨0xB4, 0, 0⟩ := by
  decide
/-- T11.1: acceptance latches, moves SEQ and changes no pin. -/
theorem test_read_is_accepted :
    (after (step (State.reset.withFetchWord 24 0x11500))).map (·.rt)
      = some { Transport.reset with op := 1, addr := 0x15, wdata := 0, seq := .read 0 } := by decide
/-- T11.2: a command while BUSY is turned away. -/
theorem test_write_is_turned_away_while_busy :
    (after (step ((transportAt (.read 30) 0x15 0).withFetchWord 24 0x22C5A))).map (·.rt)
      = some (transportAt (.read 30) 0x15 0).rt := by decide
/-- T11.3: OP = 11 changes nothing. -/
theorem test_reserved_command_changes_nothing :
    after (step (State.reset.withFetchWord 24 0x30000)) = some State.reset := by decide
/-- T1, k = 20: bit 4 of 0x15 is driven. -/
theorem test_read_drives_address_bit :
    (transportAt (.read 20) 0x15 0).microStep.rt.sdioOut = true := by decide
/-- T6, k = 45: bit 7 of 0x5A is driven. -/
theorem test_write_drives_data_bit :
    (transportAt (.write 45) 0x2C 0x5A).microStep.rt.sdioOut = false := by decide
/-- T8, k = 2: the end of a SYNC. -/
theorem test_sync_ends :
    ((transportAt (.sync 2) 0 0).microStep.rt.ncs, (transportAt (.sync 2) 0 0).microStep.rt.seq)
      = (true, SeqPos.idle) := by decide
/-- H3.4: MX = -128, RDATA = 1 gives 127. -/
theorem test_subX_wraps : stepCounter 0x80 (-(s8 0x01)) = 0x7F := by decide
/-- H3.8: MY = -10, RDATA = -128 gives 118. -/
theorem test_addY_wraps : stepCounter 0xF6 (s8 0x80) = 118 := by decide
/-- S1: the bytes at the boundary of the two readings. -/
theorem test_conversion_boundaries : (s8 0x7F, s8 0x80, s8 0x81) = (127, -128, -127) := by decide

/-! ### States that meet the hypotheses of the statements -/

/-- A READ about to shift in a bit, with the data line in input mode and a level listed. -/
def sampling (j : Fin 8) : State :=
  { State.reset with
    rt := { Transport.reset with
      ncs := false, sclk := false, sdioOut := true, op := 1, addr := 0x15, seq := .read ⟨46 + 4 * j.val, by omega⟩ }
    env := { State.reset.env with samples := [true] } }

/-- A READ about to turn the data line around, with SR not yet cleared. -/
def turningAround : State :=
  { State.reset with rt := { Transport.reset with sdioOe := true, op := 1, seq := .read 43, sr := 0x9C } }

/-- A READ about to end. -/
def ending : State :=
  { State.reset with rt := { Transport.reset with ncs := false, op := 1, seq := .read 77, sr := 0x9C } }

/-- An idle state at which a READ of 0x9C has just ended. -/
def readEnded : State :=
  { State.reset with rt := { Transport.reset with sr := 0x9C, rdataValid := true } }

/-- The reset state with inputs given. -/
def presented (l : List Input) : State := State.reset.withInputs l

theorem witness_TransportStaysConsistent :
    (sampling 0).rt.consistent = true ∧ step (sampling 0) = .next (sampling 0).microStep := ⟨by decide, rfl⟩

theorem witness_DecodeOfEncodeIsTheOperation : (Instr.write 0xFF 0x01).wellFormed = true := by decide

theorem witness_CommandWordIsKeptWhole : decodeCmd 0x0FFFF = .ok (.sync 0xFF 0xFF) := by decide

theorem witness_OnlyOpElevenIsReserved :
    (0x30000 : BitVec 18).toNat / 0x10000 = 3 ∧ (0x2FFFF : BitVec 18).toNat / 0x10000 ≠ 3 := by decide

theorem witness_StepRunsTheDecodedOperation :
    (presented [.command 0x11500, .tick]).env.inputs = inputOf (.cmd 0x11500) :: [.tick]
      ∧ decode (.cmd 0x11500) = .ok [.read 0x15 0x00] ∧ (Instr.read 0x15 0x00).wellFormed = true := by decide

theorem witness_WordThatAsksForNothingChangesNothing :
    (presented [.command 0x30000]).env.inputs = inputOf (.cmd 0x30000) :: []
      ∧ decode (.cmd 0x30000) = .error .reservedOp
      ∧ (presented [.ports 0 0]).env.inputs = inputOf (.evt 0) :: [] ∧ decode (.evt 0) = .error .noEvent
      ∧ (presented [.ports 0 0]).env.inputs = inputOf (.drn 0) :: [] ∧ decode (.drn 0) = .error .noStrobe := by
  decide

theorem witness_StepWithNothingArrivingIsAMicroStep :
    (presented []).env.inputs = [] ∧ (presented [.tick]).env.inputs = .tick :: [] := by decide

theorem witness_OperationsOfAnInstantRunInSomeOrder :
    (presented [.ports 0b11 1, .tick]).env.inputs = .ports 0b11 1 :: [.tick] := by decide

theorem witness_OrdersOfSimultaneousEdgesDiffer : currentPair (decoderAt 0xFC 3 0).qd.hist = 0b00 := by decide

theorem witness_OnlyCompanionStepsAreRefused :
    step ((transportAt (.sync 1) 0 0).withInputs [.host .mdrain]) = .refused .hostBlocked := rfl

theorem witness_ReadRunsToItsEndState : readEnded.rt.seq = .idle := by decide

/-- The reset state with the byte 0x9C, and one more level, about to be put on the wire. -/
def sensorReady : State := { State.reset with env := { State.reset.env with samples := frameBits 0x9C ++ [true] } }

theorem witness_ReadDeliversTheByteOnTheWire :
    sensorReady.rt.seq = .idle ∧ sensorReady.env.inputs = []
      ∧ sensorReady.env.samples = frameBits 0x9C ++ [true] := by decide

theorem witness_ResponseBitsShiftInMostSignificantFirst :
    (sampling 0).rt.seq = .read 46 ∧ (sampling 0).rt.sdioOe = false
      ∧ (sampling 7).rt.seq = .read 74 ∧ (sampling 7).rt.sdioOe = false
      ∧ [true, false, true, false, false, true, false, true].length = 8 := by decide

theorem witness_ReadResultIsTheSignedByte : (transportAt (.read 77) 0x15 0).rt.seq = .read 77 := by decide

theorem witness_SignedReadingsOfAByte :
    (0x7F : Byte).toNat < 128 ∧ 128 ≤ (0x80 : Byte).toNat ∧ 8 ≤ 8 ∧ 7 < 8 := by decide

theorem witness_ReadShowsTheAddressThenListens : (frameBits 0x15).length = 8 := by decide

theorem witness_WriteRunsToItsEndState : State.reset.rt.seq = .idle := by decide

theorem witness_SyncPulsesChipSelectOnly : readEnded.rt.seq = .idle := by decide

theorem witness_SyncTwiceLeavesWhatOneLeaves : State.reset.rt.seq = .idle := by decide

theorem witness_CommandWhileBusyIsTurnedAway : (transportAt (.write 84) 0x2C 0x5A).busy = true := by decide

theorem witness_IgnoredCommandBitsHaveNoEffect : readEnded.busy = false := by decide

theorem witness_LatchHoldsWhileBusy :
    (transportAt (.sync 0) 0xFF 0xFF).busy = true
      ∧ step (transportAt (.sync 0) 0xFF 0xFF) = .next (transportAt (.sync 0) 0xFF 0xFF).microStep :=
  ⟨by decide, rfl⟩

theorem witness_TransportRunsToCompletion :
    2 < (SeqPos.sync 0).remaining ∧ 84 < (SeqPos.write 0).remaining ∧ ¬ 0 < SeqPos.idle.remaining := by decide

/-- Steps that change SR: the last sample, and the turnaround. -/
theorem witness_OnlyAReadWritesSr :
    step (sampling 7) = .next (sampling 7).microStep ∧ (sampling 7).microStep.rt.sr ≠ (sampling 7).rt.sr
      ∧ step turningAround = .next turningAround.microStep ∧ turningAround.microStep.rt.sr ≠ turningAround.rt.sr :=
  ⟨rfl, by decide, rfl, by decide⟩

theorem witness_TraceLengths : (frameBits 0xFF).length = 8 := by decide

/-- Output mode, and input mode with a level listed and with none. -/
theorem witness_DataLineLevel :
    ({ State.reset with rt := { Transport.reset with sdioOe := true } } : State).rt.sdioOe = true
      ∧ (sampling 0).rt.sdioOe = false ∧ (sampling 0).env.samples = true :: []
      ∧ State.reset.rt.sdioOe = false ∧ State.reset.env.samples = [] := by decide

theorem witness_UnspecifiedRegistersNeverShow :
    (presented pollInputs).rt.seq = .idle ∧ (presented pollInputs).rt.rdataValid = false := ⟨rfl, rfl⟩

/-- Each row of the transition tables is met: the four values of the pair before the edge. -/
theorem witness_HandlersFollowTheTransitionTables :
    [0x00, 0x01, 0x02, 0x03].map (fun h => (after (exec .edgeA (decoderAt h 0 0))).map fun t => patternOf t.qd.hist)
        = [some 0b0010, some 0b0111, some 0b1000, some 0b1101]
      ∧ [0x00, 0x01, 0x02, 0x03].map
          (fun h => (after (exec .edgeB (decoderAt h 0 0))).map fun t => patternOf t.qd.hist)
        = [some 0b0001, some 0b0100, some 0b1011, some 0b1110] := by decide

theorem witness_HistoryShiftsByOnePair :
    (Instr.edgeA, (0b10 : Pair)) ∈ [(Instr.edgeA, (0b10 : Pair)), (Instr.edgeB, (0b01 : Pair))]
      ∧ currentPair (decoderAt 0xE7 5 0).qd.hist = currentPair (decoderAt 0x03 5 0).qd.hist
      ∧ (decoderAt 0xE7 5 0).qd.vscroll = (decoderAt 0x03 5 0).qd.vscroll := by decide

theorem witness_BounceCancels : Instr.edgeA.isEdge = true ∧ Instr.edgeB.isEdge = true := by decide

theorem witness_FullCycleCountsFour : currentPair (decoderAt 0xB4 126 0).qd.hist = 0b00 := by decide

/-- Vector Q17's four starts, one for each value of the exclusive or. -/
theorem witness_InferredPairDecidesTheSign :
    (∀ i ∈ [Instr.edgeA, .edgeB, .edgeA, .edgeB], i.isEdge = true)
      ∧ currentPair (decoderAt 0 0 0).qd.hist ^^^ (0b00 : Pair) = 0b00
      ∧ currentPair (decoderAt 0 0 0).qd.hist ^^^ (0b11 : Pair) = 0b11
      ∧ currentPair (decoderAt 0 0 0).qd.hist ^^^ (0b01 : Pair) = 0b01
      ∧ currentPair (decoderAt 0 0 0).qd.hist ^^^ (0b10 : Pair) = 0b10 := by decide

theorem witness_EveryCountIsInOneDrain :
    ∀ i ∈ [Instr.edgeA, .edgeB, .drain, .edgeB], i.onDecoder = true := by decide

theorem witness_HorizontalScrollStaysZero :
    step (presented [drainInput]) = .next (State.reset.drainScroll) ∧ (presented [drainInput]).qd.hscroll = 0
      ∧ step ((decoderAt 0 0 7).withInputs [drainInput]) = .next (decoderAt 0 0 7).drainScroll
      ∧ (decoderAt 0 0 7).drainScroll.qd.hscroll ≠ (decoderAt 0 0 7).qd.hscroll :=
  ⟨rfl, rfl, rfl, by decide⟩

theorem witness_OnlyHandlersWriteHistory :
    step (presented [edgeAInput]) = .next (State.reset.edge maskA classifyA)
      ∧ (State.reset.edge maskA classifyA).qd.hist ≠ (presented [edgeAInput]).qd.hist := ⟨rfl, by decide⟩

theorem witness_OnlyCompanionStepsWriteMotion :
    step (readEnded.withInputs [.host .addY]) = .next (readEnded.addMy (s8 0x9C))
      ∧ (readEnded.addMy (s8 0x9C)).motion ≠ (readEnded.withInputs [.host .addY]).motion := ⟨rfl, by decide⟩

theorem witness_AccumulationWrapsLikeEightBitArithmetic :
    s8 0x80 = -128 ∧ readEnded.busy = false ∧ readEnded.rt.rdataValid = true := by decide

theorem witness_PollAccumulatesYThenX :
    (presented (pollInputs ++ [.tick])).rt.seq = .idle
      ∧ (presented (pollInputs ++ [.tick])).env.inputs = pollInputs ++ [.tick] := ⟨rfl, rfl⟩

theorem witness_MotionDrainDeliversAndClears : readEnded.busy = false := by decide

theorem witness_EmitDeliversAllFourAccumulators :
    (presented (emitInputs ++ [.tick])).rt.seq = .idle
      ∧ (presented (emitInputs ++ [.tick])).env.inputs = emitInputs ++ [.tick] := ⟨rfl, rfl⟩

theorem witness_DecoderStepsCommuteWithMicroSteps : Instr.drain.onDecoder = true := by decide

theorem witness_InterleavingIsTheProductOfTheUnits :
    (presented ([.tick, edgeAInput, drainInput, edgeBInput] ++ [.tick])).env.inputs
        = [.tick, edgeAInput, drainInput, edgeBInput] ++ [.tick]
      ∧ ∀ x ∈ [.tick, edgeAInput, drainInput, edgeBInput], Input.isQuiet x = true := ⟨rfl, by decide⟩

/-- A valid RDATA before a step that is no READ and before the acceptance of one, and the step by which it becomes
valid. -/
theorem witness_RdataIsValidFromOneReadToTheNext :
    readEnded.rt.consistent = true ∧ readEnded.rdata = some (s8 0x9C)
      ∧ step (readEnded.withInputs [.host .addY]) = .next (readEnded.addMy (s8 0x9C))
      ∧ step (readEnded.withInputs [.command 0x11500]) = .next (readEnded.latch opRead 0x15 0x00 (.read 0) false)
      ∧ (readEnded.withInputs [.command 0x11500]).busy = false
      ∧ ending.rt.consistent = true ∧ step ending = .next ending.microStep
      ∧ ending.rdata = none ∧ ending.microStep.rdata = some (s8 0x9C) :=
  ⟨by decide, rfl, rfl, rfl, rfl, by decide, rfl, rfl, rfl⟩

theorem witness_AccumulationWithoutAReadTakesAFreeValue :
    State.reset.busy = false ∧ State.reset.rt.rdataValid = false := by decide

/-- States that differ in all four registers, idle; and in SR alone, early in a READ. -/
theorem witness_StepsKeepStatesAlike :
    State.reset.alike
        { State.reset with rt := { Transport.reset with op := 2, addr := 0x2C, wdata := 0x5A, sr := 0x9C } }
      ∧ (transportAt (.read 43) 0x15 0).alike ((transportAt (.read 43) 0x15 0).setSr 0xFF) := by
  refine ⟨⟨rfl, by decide, by decide, ?_⟩, ⟨rfl, by decide, by decide, ?_⟩⟩
  · intro k hk; cases hk
  · intro k hk hn; cases hk; exact absurd hn (by decide)

theorem witness_StepsKeepTheInferredPairsDifference :
    step (presented [edgeAInput]) = .next (State.reset.edge maskA classifyA) := rfl

theorem witness_StepsConserveTheVerticalCount :
    step ((decoderAt 0xB4 2 0).withInputs [drainInput]) = .next (decoderAt 0xB4 2 0).drainScroll
      ∧ step ((decoderAt 0x00 127 0).withInputs [edgeBInput])
          = .next ((decoderAt 0x00 127 0).edge maskB classifyB) := ⟨rfl, rfl⟩

end Sys2Proof.Machine.Test
end

section
/-! PROOFS. The two readings of a byte, the narrowing and the two extensions (00_scope.md R11): settles O19. -/

namespace Sys2Proof.Machine

/-! ### The signed reading -/

theorem s8_of_lt {p : Byte} (h : p.toNat < 128) : s8 p = p.toNat := if_pos h

theorem s8_of_le {p : Byte} (h : 128 ≤ p.toNat) : s8 p = (p.toNat : Int) - 256 := if_neg (by omega)

theorem neg_128_le_s8 (p : Byte) : -128 ≤ s8 p := by
  rw [s8_eq_toInt]
  exact p.le_toInt

theorem s8_le_127 (p : Byte) : s8 p ≤ 127 := by
  rw [s8_eq_toInt]
  exact Int.le_of_lt_add_one p.toInt_lt

/-! ### The source's reading: the high bit and the low seven -/

theorem highBit_iff_128_le (p : Byte) : p.getLsbD 7 = true ↔ 128 ≤ p.toNat := by
  rw [← BitVec.msb_eq_getLsbD_last p, BitVec.msb_eq_decide, decide_eq_true_iff]

theorem toNat_lowSevenBits (p : Byte) : (p &&& 0x7F).toNat = p.toNat % 128 :=
  Nat.and_two_pow_sub_one_eq_mod p.toNat 7

theorem s8_eq_of_highBit (p : Byte) :
    s8 p = if p.getLsbD 7 then -128 + ((p &&& 0x7F).toNat : Int) else (p.toNat : Int) := by
  have hlt := p.isLt
  split
  next hbit =>
    have hle := (highBit_iff_128_le p).mp hbit
    rw [s8_of_le hle, toNat_lowSevenBits]
    omega
  next hbit =>
    have hnle := mt (highBit_iff_128_le p).mpr hbit
    exact s8_of_lt (by omega)

/-! ### Narrowing an integer -/

theorem toNat_u8 (n : Int) : ((u8 n).toNat : Int) = n % 256 := by
  rw [u8, BitVec.toNat_ofInt]
  exact Int.toNat_of_nonneg (Int.emod_nonneg n (by decide))

/-! ### The two extensions -/

theorem getLsbD_sext {n i : Nat} (p : Byte) (h : i < n) :
    (sext n p).getLsbD i = if i < 8 then p.getLsbD i else p.getLsbD 7 := by
  rw [sext, BitVec.getLsbD_signExtend, decide_eq_true h, Bool.true_and, BitVec.msb_eq_getLsbD_last]

theorem getLsbD_zext {n i : Nat} (p : Byte) (h : i < n) :
    (zext n p).getLsbD i = if i < 8 then p.getLsbD i else false := by
  rw [zext, BitVec.getLsbD_setWidth, decide_eq_true h, Bool.true_and]
  split
  next => rfl
  next hi => exact BitVec.getLsbD_of_ge p i (by omega)

/-- Settles O19: each reading, the narrowing and each extension by its own lemma. -/
theorem signedReadingsOfAByte : Obligations.SignedReadingsOfAByte :=
  ⟨fun _ => ⟨s8_of_lt, s8_of_le⟩,
    s8_eq_of_highBit,
    fun n => ⟨toNat_u8 n, (s8_u8_eq_wrap8 n).symm, neg_128_le_s8 (u8 n), s8_le_127 (u8 n)⟩,
    fun _ p _ _ hi => ⟨getLsbD_sext p hi, getLsbD_zext p hi⟩⟩

end Sys2Proof.Machine
end

section
/-! PROOFS. The pin trace of a list of micro-steps, and the bits that driven slots present (20_memory.md R71;
30_encoding.md R92, R94): settles O23. -/

namespace Sys2Proof.Machine

/-! ### The pin trace of a list in parts -/

/-- The second part samples from where the first part's samples end. -/
theorem pinTrace_append (addr wdata : Byte) (l l' : List MicroStep) (b : List Level) :
    pinTrace addr wdata (l ++ l') b
      = pinTrace addr wdata l b ++ pinTrace addr wdata l' (b.drop (l.count .sampleShift)) := by
  induction l generalizing b with
  | nil => rfl
  | cons m l ih =>
    cases m with
    | sampleShift => cases b <;> simp [pinTrace, ih]
    | _ => simp [pinTrace, ih]

theorem pinTrace_append_nil (addr wdata : Byte) (l l' : List MicroStep) :
    pinTrace addr wdata (l ++ l') [] = pinTrace addr wdata l [] ++ pinTrace addr wdata l' [] := by
  rw [pinTrace_append, List.drop_nil]

theorem pinTrace_flatMap_nil {α : Type} (addr wdata : Byte) (slot : α → List MicroStep) (is : List α) :
    pinTrace addr wdata (is.flatMap slot) [] = is.flatMap fun i => pinTrace addr wdata (slot i) [] := by
  induction is with
  | nil => rfl
  | cons i is ih => rw [List.flatMap_cons, pinTrace_append_nil, ih, List.flatMap_cons]

/-! ### Driven slots -/

/-- The pin trace of a slot that drives the bit `v` (30_encoding.md R94), its waits removed. -/
def drivenSlot (v : Level) : List PinEvent := [.sclk false, .sdioOut v, .sclk true]

theorem pinTrace_writeSlot_driveAddr (addr wdata : Byte) (i : Fin 8) :
    pinTrace addr wdata (writeSlot (.driveAddr i)) [] = drivenSlot (bitOf addr i) := rfl

theorem pinTrace_writeSlot_driveData (addr wdata : Byte) (i : Fin 8) :
    pinTrace addr wdata (writeSlot (.driveData i)) [] = drivenSlot (bitOf wdata i) := rfl

theorem sdioOe_notMem_flatMap_drivenSlot (v : Level) (bits : List Level) :
    .sdioOe v ∉ bits.flatMap drivenSlot := by
  simp [drivenSlot]

/-- While chip-select is low and the data line is in output mode, each slot presents its own bit and no other: the rising
edge comes after the drive, whatever SCLK and SDIO_OUT were before the first slot. -/
theorem presentedBits_flatMap_drivenSlot {p : Pins} (hncs : p.ncs = false) (hoe : p.sdioOe = true)
    (bits : List Level) : presentedBits p (bits.flatMap drivenSlot) = bits := by
  induction bits generalizing p with
  | nil => rfl
  | cons v bits ih =>
    have rest := @ih { p with sclk := true, sdioOut := v } hncs hoe
    simpa [drivenSlot, presentedBits, Pins.presents, Pins.after, hncs, hoe] using rest

/-! ### WRITE -/

/-- What WRITE's trace holds between the two writes of chip-select. -/
def writeSlots (addr wdata : Byte) : List PinEvent :=
  [.sclk false, .sdioOe true] ++ (frameBits addr ++ frameBits wdata).flatMap drivenSlot

theorem pinTrace_writeSteps (addr wdata : Byte) :
    pinTrace addr wdata writeSteps [] = .ncs false :: writeSlots addr wdata ++ [.ncs true] := by
  have hopen : pinTrace addr wdata opening [] = [.ncs false, .sclk false, .sdioOe true] := rfl
  have hclose : pinTrace addr wdata [.wait .idle, .release] [] = [.ncs true] := rfl
  simp [writeSteps, writeSlots, frameBits, pinTrace_append_nil, pinTrace_flatMap_nil,
    pinTrace_writeSlot_driveAddr, pinTrace_writeSlot_driveData, hopen, hclose, List.flatMap_map]

theorem sdioOe_false_notMem_writeSlots (addr wdata : Byte) : .sdioOe false ∉ writeSlots addr wdata := by
  rw [writeSlots, List.mem_append, not_or]
  exact ⟨by decide, sdioOe_notMem_flatMap_drivenSlot false _⟩

theorem presentedBits_writeSlots {p : Pins} (hncs : p.ncs = false) (addr wdata : Byte) :
    presentedBits p (writeSlots addr wdata) = frameBits addr ++ frameBits wdata := by
  have slots := @presentedBits_flatMap_drivenSlot { p with sclk := false, sdioOe := true } hncs rfl
    (frameBits addr ++ frameBits wdata)
  simpa [writeSlots, presentedBits, Pins.presents, Pins.after] using slots

/-- Settles O23: the opening sets output mode and presents nothing, then each of the sixteen slots presents its bit. -/
theorem writeShowsTheAddressThenTheData : Obligations.WriteShowsTheAddressThenTheData :=
  fun _ addr wdata => ⟨writeSlots addr wdata, pinTrace_writeSteps addr wdata,
    sdioOe_false_notMem_writeSlots addr wdata, presentedBits_writeSlots rfl addr wdata⟩

end Sys2Proof.Machine
end

section
/-! PROOFS. The response shift and the byte that shifts make (40_register_transport.md R131; 30_encoding.md R96):
settles O17. -/

namespace Sys2Proof.Machine

/-! ### The bits of a shift and of a byte shifted in -/

theorem setWidth_ofBool_eq_ite (v : Level) : (BitVec.ofBool v).setWidth 8 = if v then 1 else 0 := by
  cases v <;> rfl

theorem shiftBit_eq (sr : Byte) (v : Level) : shiftBit sr v = (sr <<< 1) ||| (if v then 1 else 0) := by
  rw [shiftBit, setWidth_ofBool_eq_ite]

theorem getLsbD_shiftBit_zero (sr : Byte) (v : Level) : (shiftBit sr v).getLsbD 0 = v := by
  simp [shiftBit]

theorem getLsbD_shiftBit_succ (sr : Byte) (v : Level) {i : Nat} (h : i + 1 < 8) :
    (shiftBit sr v).getLsbD (i + 1) = sr.getLsbD i := by
  simp [shiftBit, h, BitVec.getLsbD_eq_getElem (Nat.lt_of_succ_lt h)]

theorem byteOfBits_concat (bits : List Level) (v : Level) :
    byteOfBits (bits ++ [v]) = shiftBit (byteOfBits bits) v := by
  rw [byteOfBits, List.foldl_concat, byteOfBits]

/-- The byte holds the last eight bits shifted in, the last one at bit 0, for any number of shifts. -/
theorem getLsbD_byteOfBits (bits : List Level) {i : Nat} (h : i < 8) :
    (byteOfBits bits).getLsbD i = bits.reverse.getD i false := by
  induction bits using List.reverseRecOn generalizing i with
  | nil => simp [byteOfBits]
  | append_singleton bits v ih =>
    rw [byteOfBits_concat, List.reverse_concat]
    cases i with
    | zero => exact getLsbD_shiftBit_zero _ v
    | succ i => rw [getLsbD_shiftBit_succ _ v h, ih (by omega), List.getD_cons_succ]

/-- Of eight bits the first ends as bit 7 and the last as bit 0 (30_encoding.md R96). -/
theorem getElem?_eq_getLsbD_byteOfBits {bits : List Level} (hlen : bits.length = 8) (i : Fin 8) :
    bits[i.val]? = some ((byteOfBits bits).getLsbD (7 - i.val)) := by
  have hi : i.val < bits.length := by omega
  have hmirror : bits.length - 1 - (7 - i.val) = i.val := by omega
  rw [getLsbD_byteOfBits bits (by omega), List.getD_eq_getElem?_getD, List.getElem?_reverse (by omega), hmirror,
    List.getElem?_eq_getElem hi, Option.getD_some]

/-! ### The sampling micro-steps of READ -/

theorem readSteps_sampling : ∀ j : Fin 8, readSteps[46 + 4 * j.val]? = some .sampleShift := by decide

theorem count_sampleShift_readSteps : readSteps.count .sampleShift = 8 := by decide

theorem advance_read {k : Nat} (h : k + 1 < 78) :
    (SeqPos.read ⟨k, Nat.lt_of_succ_lt h⟩).advance = .read ⟨k + 1, h⟩ :=
  dif_pos h

theorem sampleShift_of_input {s : State} (hoe : s.rt.sdioOe = false) :
    s.sampleShift = { s with
      rt := { s.rt with sr := shiftBit s.rt.sr s.env.level }
      env := s.env.taken
      obs := { s.obs with trace := s.obs.trace ++ [.sample s.env.level] } } := by
  simp [State.sampleShift, State.sdioLine, State.log, State.setSr, hoe]

theorem microStep_sampling {s : State} {j : Fin 8} (h : 47 + 4 * j.val < 78)
    (hseq : s.rt.seq = .read ⟨46 + 4 * j.val, by omega⟩) :
    s.microStep = s.sampleShift.setSeq (.read ⟨47 + 4 * j.val, h⟩) := by
  have hm : s.rt.seq.microStep? = some .sampleShift := by rw [hseq]; exact readSteps_sampling j
  have hk : 46 + 4 * j.val + 1 = 47 + 4 * j.val := by omega
  have hnext : s.rt.seq.advance = .read ⟨47 + 4 * j.val, h⟩ := by
    rw [hseq, advance_read (hk ▸ h)]
    simp only [hk]
  rw [microStep_of_some hm, hnext, State.perform]

/-- Settles O17: each sampling micro-step is one shift of the level in input mode, and eight shifts place the bits. -/
theorem responseBitsShiftInMostSignificantFirst : Obligations.ResponseBitsShiftInMostSignificantFirst := by
  refine ⟨fun s j h hseq hoe => ?shift, count_sampleShift_readSteps, fun j => ?slot,
    fun _ hlen => getElem?_eq_getLsbD_byteOfBits hlen⟩
  case shift => rw [microStep_sampling h hseq, sampleShift_of_input hoe, shiftBit_eq, State.setSeq]
  case slot => rw [List.head?_drop, readSteps_sampling]

end Sys2Proof.Machine
end

section
/-! PROOFS. HIST after a pair is shifted in, the counter after a row of a transition table, and what the two handlers do
with them (41_quadrature_decoder.md R161, R162, R164; 30_encoding.md R101): settles O38, O35 and O36. -/

namespace Sys2Proof.Machine

/-! ### HIST after the shift -/

theorem getLsbD_shiftPair_of_lt_two (hist : Byte) (new : Pair) {i : Nat} (h : i < 2) :
    (shiftPair hist new).getLsbD i = new.getLsbD i := by
  simp [shiftPair, h, show i < 8 by omega]

theorem getLsbD_shiftPair_add_two (hist : Byte) (new : Pair) {i : Nat} (h : i < 6) :
    (shiftPair hist new).getLsbD (2 + i) = hist.getLsbD i := by
  simp [shiftPair, show 2 + i < 8 by omega, show ¬2 + i ≤ 1 by omega, BitVec.getLsbD_eq_getElem (show i < 8 by omega)]

/-- HIST[5:0] move to HIST[7:2]. -/
theorem extractLsb'_two_six_shiftPair (hist : Byte) (new : Pair) :
    (shiftPair hist new).extractLsb' 2 6 = hist.extractLsb' 0 6 := by
  refine BitVec.eq_of_getLsbD_eq fun i hi => ?_
  rw [BitVec.getLsbD_extractLsb', BitVec.getLsbD_extractLsb', getLsbD_shiftPair_add_two hist new hi, Nat.zero_add]

theorem currentPair_shiftPair (hist : Byte) (new : Pair) : currentPair (shiftPair hist new) = new := by
  refine BitVec.eq_of_getLsbD_eq fun i hi => ?_
  rw [currentPair, BitVec.getLsbD_extractLsb', Nat.zero_add, getLsbD_shiftPair_of_lt_two hist new hi,
    decide_eq_true hi, Bool.true_and]

theorem previousPair_shiftPair (hist : Byte) (new : Pair) : previousPair (shiftPair hist new) = currentPair hist := by
  refine BitVec.eq_of_getLsbD_eq fun i hi => ?_
  rw [previousPair, currentPair, BitVec.getLsbD_extractLsb', BitVec.getLsbD_extractLsb',
    getLsbD_shiftPair_add_two hist new (by omega), Nat.zero_add]

/-- A pattern is the previous pair above the current one (30_encoding.md R103). -/
theorem patternOf_eq_append (hist : Byte) : patternOf hist = previousPair hist ++ currentPair hist :=
  (BitVec.extractLsb'_append_extractLsb'_eq_extractLsb' (show 2 = 0 + 2 from rfl)).symm

/-- The pattern a handler classifies is made of the former current pair and the new one alone. -/
theorem patternOf_shiftPair (hist : Byte) (new : Pair) : patternOf (shiftPair hist new) = currentPair hist ++ new := by
  rw [patternOf_eq_append, previousPair_shiftPair, currentPair_shiftPair]

/-! ### The counter after a row of a table -/

theorem countStep_up (c : Byte) : countStep c .up = u8 (s8 c + 1) := rfl

theorem countStep_down (c : Byte) : countStep c .down = u8 (s8 c - 1) := rfl

theorem countStep_hold (c : Byte) : countStep c .hold = c := by
  rw [countStep, stepCounter, Count.delta, Int.add_zero, u8_s8]

theorem countStep_ite (c : Byte) (p q : Prop) [Decidable p] [Decidable q] :
    countStep c (if p then .up else if q then .down else .hold)
      = if p then u8 (s8 c + 1) else if q then u8 (s8 c - 1) else c := by
  rw [apply_ite (countStep c), apply_ite (countStep c), countStep_up, countStep_down, countStep_hold]

/-! ### The handlers -/

theorem exec_edgeA (s : State) : exec .edgeA s = .next (s.edge maskA classifyA) := rfl

theorem exec_edgeB (s : State) : exec .edgeB s = .next (s.edge maskB classifyB) := rfl

theorem edgeA_mem_eventOps (evt : BitVec 2) : Instr.edgeA ∈ eventOps evt ↔ evt.getLsbD 1 = true := by
  simp [eventOps]

theorem edgeB_mem_eventOps (evt : BitVec 2) : Instr.edgeB ∈ eventOps evt ↔ evt.getLsbD 0 = true := by
  simp [eventOps]

/-- Each handler is a run of `State.edge` with its own line's mask. -/
theorem exec_eq_edge_of_mem {im : Instr × Pair} (him : im ∈ [(Instr.edgeA, maskA), (Instr.edgeB, maskB)]) :
    ∃ classify, ∀ s, exec im.1 s = .next (s.edge im.2 classify) := by
  rcases List.mem_pair.mp him with rfl | rfl
  · exact ⟨classifyA, exec_edgeA⟩
  · exact ⟨classifyB, exec_edgeB⟩

/-- States that agree in the current pair and VSCROLL agree in the pattern and VSCROLL after a handler, whatever
HIST[7:2] held. -/
theorem edge_congr {s s' : State} (hpair : currentPair s'.qd.hist = currentPair s.qd.hist)
    (hcount : s'.qd.vscroll = s.qd.vscroll) (mask : Pair) (classify : Pattern → Count) :
    patternOf (s'.edge mask classify).qd.hist = patternOf (s.edge mask classify).qd.hist
      ∧ (s'.edge mask classify).qd.vscroll = (s.edge mask classify).qd.vscroll := by
  simp [patternOf_shiftPair, hpair, hcount]

/-- Settles O38: each handler is one run of `State.edge`, whose new HIST is a shift by one pair. -/
theorem historyShiftsByOnePair : Obligations.HistoryShiftsByOnePair := by
  intro im him s s'
  obtain ⟨classify, hexec⟩ := exec_eq_edge_of_mem him
  exact ⟨_, _, hexec s, hexec s', extractLsb'_two_six_shiftPair .., previousPair_shiftPair ..,
    currentPair_shiftPair .., fun hpair hcount => edge_congr hpair hcount im.2 classify⟩

/-- Settles O35: one run of `State.edge`, its count read off the classification's two rows. -/
theorem edgeAUpdatesHistoryAndCount : Obligations.EdgeAUpdatesHistoryAndCount := by
  refine ⟨fun s => ?state, rfl, edgeA_mem_eventOps⟩
  case state => rw [exec_edgeA, State.edge, classifyA, countStep_ite]; rfl

/-- Settles O36: as O35, with line B's mask and table. -/
theorem edgeBUpdatesHistoryAndCount : Obligations.EdgeBUpdatesHistoryAndCount := by
  refine ⟨fun s => ?state, rfl, edgeB_mem_eventOps⟩
  case state => rw [exec_edgeB, State.edge, classifyB, countStep_ite]; rfl

end Sys2Proof.Machine
end

section
/-! PROOFS. The fields of a CMD word, the operation each OP code asks for, and decode against encode (30_encoding.md
R100 to R105): settles O4, O5, O6 and O7. -/

namespace Sys2Proof.Machine

/-! ### The fields of a CMD word -/

section
variable (op : BitVec 2) (addr wdata : Byte)

theorem cmdOp_cmdWord : cmdOp (cmdWord op addr wdata) = op := by
  have hhigh : (op ++ addr ++ wdata).extractLsb' 16 2 = (op ++ addr).extractLsb' 8 2 :=
    BitVec.extractLsb'_append_eq_of_le (by decide)
  rw [cmdOp, cmdWord, hhigh, BitVec.extractLsb'_append_eq_left]

theorem cmdAddr_cmdWord : cmdAddr (cmdWord op addr wdata) = addr := by
  have hhigh : (op ++ addr ++ wdata).extractLsb' 8 8 = (op ++ addr).extractLsb' 0 8 :=
    BitVec.extractLsb'_append_eq_of_le (by decide)
  rw [cmdAddr, cmdWord, hhigh, BitVec.extractLsb'_append_eq_right]

theorem cmdData_cmdWord : cmdData (cmdWord op addr wdata) = wdata :=
  BitVec.extractLsb'_append_eq_right

end

/-- The three fields are the whole word. -/
theorem cmdWord_fields (w : BitVec 18) : cmdWord (cmdOp w) (cmdAddr w) (cmdData w) = w := by
  have hhigh : cmdOp w ++ cmdAddr w = w.extractLsb' 8 10 := BitVec.extractLsb'_append_extractLsb'_eq_extractLsb' rfl
  have hall : w.extractLsb' 8 10 ++ cmdData w = w.extractLsb' 0 18 :=
    BitVec.extractLsb'_append_extractLsb'_eq_extractLsb' rfl
  rw [cmdWord, hhigh, hall, BitVec.extractLsb'_eq_self]

theorem toNat_cmdOp (w : BitVec 18) : (cmdOp w).toNat = w.toNat / 0x10000 := by
  have hlt := w.isLt
  simp only [cmdOp, BitVec.extractLsb'_toNat, Nat.shiftRight_eq_div_pow]
  omega

/-! ### The operation of each OP code -/

/-- Everything the CMD decoder can answer. -/
theorem decodeCmd_cases (w : BitVec 18) :
    (cmdOp w = opSync ∧ decodeCmd w = .ok (.sync (cmdAddr w) (cmdData w)))
      ∨ (cmdOp w = opRead ∧ decodeCmd w = .ok (.read (cmdAddr w) (cmdData w)))
      ∨ (cmdOp w = opWrite ∧ decodeCmd w = .ok (.write (cmdAddr w) (cmdData w)))
      ∨ (cmdOp w = 3 ∧ decodeCmd w = .error .reservedOp) := by
  have hcodes : ∀ op : BitVec 2, op = opSync ∨ op = opRead ∨ op = opWrite ∨ op = 3 := by decide
  rcases hcodes (cmdOp w) with h | h | h | h
  · exact .inl ⟨h, by rw [decodeCmd, h]; rfl⟩
  · exact .inr (.inl ⟨h, by rw [decodeCmd, h]; rfl⟩)
  · exact .inr (.inr (.inl ⟨h, by rw [decodeCmd, h]; rfl⟩))
  · exact .inr (.inr (.inr ⟨h, by rw [decodeCmd, h]; rfl⟩))

section
variable (addr wdata : Byte)

theorem decodeCmd_sync : decodeCmd (cmdWord opSync addr wdata) = .ok (.sync addr wdata) := by
  rw [decodeCmd, cmdOp_cmdWord, cmdAddr_cmdWord, cmdData_cmdWord]; rfl

theorem decodeCmd_read : decodeCmd (cmdWord opRead addr wdata) = .ok (.read addr wdata) := by
  rw [decodeCmd, cmdOp_cmdWord, cmdAddr_cmdWord, cmdData_cmdWord]; rfl

theorem decodeCmd_write : decodeCmd (cmdWord opWrite addr wdata) = .ok (.write addr wdata) := by
  rw [decodeCmd, cmdOp_cmdWord, cmdAddr_cmdWord, cmdData_cmdWord]; rfl

end

theorem decode_cmd_of_ok {w : BitVec 18} {i : Instr} (h : decodeCmd w = .ok i) : decode (.cmd w) = .ok [i] := by
  rw [decode, h]; rfl

/-- Settles O4: a transport operation by the fields of its word, the others by their one word. -/
theorem decodeOfEncodeIsTheOperation : Obligations.DecodeOfEncodeIsTheOperation := by
  intro i _
  cases i with
  | sync addr wdata => exact decode_cmd_of_ok (decodeCmd_sync addr wdata)
  | read addr wdata => exact decode_cmd_of_ok (decodeCmd_read addr wdata)
  | write addr wdata => exact decode_cmd_of_ok (decodeCmd_write addr wdata)
  | edgeA => rfl
  | edgeB => rfl
  | drain => rfl

/-- Settles O5: the accepted word is the word of its own three fields. -/
theorem commandWordIsKeptWhole : Obligations.CommandWordIsKeptWhole := by
  intro w i hi
  have hword := cmdWord_fields w
  rcases decodeCmd_cases w with ⟨hop, h⟩ | ⟨hop, h⟩ | ⟨hop, h⟩ | ⟨-, h⟩ <;> rw [h] at hi <;> cases hi <;>
    rw [hop] at hword <;> exact congrArg PortWord.cmd hword

/-- Settles O6: the two high bits are OP, and 11 is the one code with no operation. -/
theorem onlyOpElevenIsReserved : Obligations.OnlyOpElevenIsReserved := by
  intro w
  rw [← toNat_cmdOp]
  rcases decodeCmd_cases w with ⟨hop, h⟩ | ⟨hop, h⟩ | ⟨hop, h⟩ | ⟨hop, h⟩ <;> rw [hop, h]
  · exact ⟨fun h3 => absurd h3 (by decide), fun _ => ⟨_, rfl⟩⟩
  · exact ⟨fun h3 => absurd h3 (by decide), fun _ => ⟨_, rfl⟩⟩
  · exact ⟨fun h3 => absurd h3 (by decide), fun _ => ⟨_, rfl⟩⟩
  · exact ⟨fun _ => rfl, fun hne => absurd rfl hne⟩

/-- Settles O7: six fixed words. -/
theorem writtenOutWordsDecode : Obligations.WrittenOutWordsDecode :=
  ⟨rfl, rfl, rfl, rfl, rfl, rfl⟩

end Sys2Proof.Machine
end

section
/-! PROOFS. What a step takes from the inputs and does with it, input by input (00_scope.md R8; 30_encoding.md R101,
R102, R104): settles O8, O9, O10 and O13. -/

namespace Sys2Proof.Machine

/-! ### One step, by the next input -/

section
variable {s : State} {rest : List Input}

theorem step_of_nil (h : s.env.inputs = []) : step s = .next s.microStep := by
  simp only [step, State.fetch, h]

theorem step_of_tick (h : s.env.inputs = .tick :: rest) : step s = .next (s.withInputs rest).microStep := by
  simp only [step, State.fetch, h]

theorem step_of_host {k : HostStep} (h : s.env.inputs = .host k :: rest) :
    step s = execHostStep k (s.withInputs rest) := by
  simp only [step, State.fetch, h]

theorem step_of_command_ok {w : BitVec 18} {i : Instr} (h : s.env.inputs = .command w :: rest)
    (hw : decodeCmd w = .ok i) : step s = exec i (s.withInputs rest) := by
  simp only [step, State.fetch, h, hw]

theorem step_of_command_error {w : BitVec 18} {r : Reject} (h : s.env.inputs = .command w :: rest)
    (hw : decodeCmd w = .error r) : step s = .next (s.withInputs rest) := by
  simp only [step, State.fetch, h, hw]

/-- An instant in which nothing is due. -/
theorem step_of_ports_nil {evt : BitVec 2} {drn : BitVec 1} (h : s.env.inputs = .ports evt drn :: rest)
    (hdue : dueOps evt drn = []) : step s = .next (s.withInputs rest) := by
  simp only [step, State.fetch, h, State.fetchPorts, hdue]

/-- An instant in which one operation is due. -/
theorem step_of_ports_singleton {evt : BitVec 2} {drn : BitVec 1} {i : Instr}
    (h : s.env.inputs = .ports evt drn :: rest) (hdue : dueOps evt drn = [i]) :
    step s = exec i (s.withInputs rest) := by
  simp only [step, State.fetch, h, State.fetchPorts, hdue]

end

/-! ### Port words -/

theorem dueOps_zero_right (evt : BitVec 2) : dueOps evt 0 = eventOps evt := List.append_nil _

theorem dueOps_zero_left (drn : BitVec 1) : dueOps 0 drn = drainOps drn := rfl

theorem decode_evt_of_ok {w : BitVec 2} {l : List Instr} (h : decode (.evt w) = .ok l) : dueOps w 0 = l := by
  rw [dueOps_zero_right]
  rw [decode] at h
  split at h
  · cases h
  · exact Except.ok.inj h

theorem decode_drn_of_ok {w : BitVec 1} {l : List Instr} (h : decode (.drn w) = .ok l) : dueOps 0 w = l := by
  rw [dueOps_zero_left]
  rw [decode] at h
  split at h
  · cases h
  · exact Except.ok.inj h

theorem decode_evt_of_error {w : BitVec 2} {r : Reject} (h : decode (.evt w) = .error r) : w = 0 := by
  rw [decode] at h
  split at h
  next hw => exact hw
  next => cases h

theorem decode_drn_of_error {w : BitVec 1} {r : Reject} (h : decode (.drn w) = .error r) : w = 0 := by
  rw [decode] at h
  split at h
  next hw => exact hw
  next => cases h

theorem decodeCmd_of_decode_ok {w : BitVec 18} {i : Instr} (h : decode (.cmd w) = .ok [i]) : decodeCmd w = .ok i := by
  cases hd : decodeCmd w with
  | ok j => rw [decode_cmd_of_ok hd] at h; cases h; rfl
  | error r => rw [decode, hd] at h; cases h

theorem decodeCmd_of_decode_error {w : BitVec 18} {r : Reject} (h : decode (.cmd w) = .error r) :
    decodeCmd w = .error r := by
  cases hd : decodeCmd w with
  | ok j => rw [decode_cmd_of_ok hd] at h; cases h
  | error q => rw [decode, hd] at h; cases h; rfl

/-- Settles O8: port by port. -/
theorem stepRunsTheDecodedOperation : Obligations.StepRunsTheDecodedOperation := by
  intro s p rest i hin hdec _
  cases p with
  | cmd w => exact step_of_command_ok hin (decodeCmd_of_decode_ok hdec)
  | evt w => exact step_of_ports_singleton hin (decode_evt_of_ok hdec)
  | drn w => exact step_of_ports_singleton hin (decode_drn_of_ok hdec)

/-- Settles O9: port by port. -/
theorem wordThatAsksForNothingChangesNothing : Obligations.WordThatAsksForNothingChangesNothing := by
  intro s p rest r hin hdec
  cases p with
  | cmd w => exact step_of_command_error hin (decodeCmd_of_decode_error hdec)
  | evt w => exact step_of_ports_nil hin (by rw [decode_evt_of_error hdec]; rfl)
  | drn w => exact step_of_ports_nil hin (by rw [decode_drn_of_error hdec]; rfl)

/-- Settles O10: no input, and a `tick`. -/
theorem stepWithNothingArrivingIsAMicroStep : Obligations.StepWithNothingArrivingIsAMicroStep :=
  fun _ => ⟨step_of_nil, fun _ => step_of_tick⟩

/-! ### Which steps answer a next state -/

theorem exec_eq_next (i : Instr) (s : State) : ∃ t, exec i s = .next t := by
  cases i <;> exact ⟨_, rfl⟩

theorem execHostStep_refused {k : HostStep} {s : State} {r : Refusal} (h : execHostStep k s = .refused r) :
    s.busy = true ∧ r = .hostBlocked := by
  cases hb : s.busy with
  | true => rw [execHostStep_of_busy hb] at h; cases h; exact ⟨rfl, rfl⟩
  | false => rw [execHostStep_of_idle ((busy_eq_false_iff s).1 hb)] at h; cases h

/-- HOST's action comes from HOST's input alone. -/
theorem fetch_host {s u : State} {k : HostStep} (h : s.fetch = (.host k, u)) :
    ∃ rest, s.env.inputs = .host k :: rest ∧ u = s.withInputs rest := by
  unfold State.fetch at h
  split at h
  · cases h
  · cases h
  · split at h <;> cases h
  · unfold State.fetchPorts at h
    split at h <;> cases h
  next hin => cases h; exact ⟨_, hin, rfl⟩

/-- The one way a step is refused. -/
theorem step_refused {s : State} {r : Refusal} (h : step s = .refused r) :
    ∃ k rest, s.env.inputs = .host k :: rest ∧ s.busy = true ∧ r = .hostBlocked := by
  unfold step at h
  split at h
  · cases h
  next i u hf =>
    obtain ⟨t, ht⟩ := exec_eq_next i u
    rw [ht] at h
    cases h
  next k u hf =>
    obtain ⟨rest, hin, rfl⟩ := fetch_host hf
    obtain ⟨hbusy, hr⟩ := execHostStep_refused h
    exact ⟨k, rest, hin, hbusy, hr⟩
  · cases h

theorem step_ne_fault (s : State) (f : Fault) : step s ≠ .fault f := by
  cases f

/-- Settles O13: `exec` always answers a next state, and of the other actions HOST's alone can be refused. -/
theorem onlyCompanionStepsAreRefused : Obligations.OnlyCompanionStepsAreRefused :=
  ⟨exec_eq_next, step_ne_fault, fun _ _ => step_refused⟩

end Sys2Proof.Machine
end

section
/-! PROOFS. The operations on the decoder as functions of the state, the pair and the count after them, and what every
step keeps of the decoder (41_quadrature_decoder.md R170 to R174; 42_host_operations.md R190, R191): settles O57, O58,
O12, O37, O39, O40, O41, O42, O43, O44, O45, O46 and O47. -/

namespace Sys2Proof.Machine

/-! ### The operations on the decoder -/

/-- The state after an operation on the decoder (20_memory.md R77); a transport operation is none. -/
def State.afterDecoderOp (s : State) : Instr → State
  | .edgeA => s.edge maskA classifyA
  | .edgeB => s.edge maskB classifyB
  | .drain => s.drainScroll
  | .sync _ _ => s
  | .read _ _ => s
  | .write _ _ => s

theorem exec_of_onDecoder {i : Instr} (h : i.onDecoder = true) (s : State) :
    exec i s = .next (s.afterDecoderOp i) := by
  cases i with
  | sync addr wdata => cases h
  | read addr wdata => cases h
  | write addr wdata => cases h
  | edgeA => rfl
  | edgeB => rfl
  | drain => rfl

theorem afterDecoderOp_of_not_onDecoder {i : Instr} (h : i.onDecoder = false) (s : State) :
    s.afterDecoderOp i = s := by
  cases i with
  | sync addr wdata => rfl
  | read addr wdata => rfl
  | write addr wdata => rfl
  | edgeA => cases h
  | edgeB => cases h
  | drain => cases h

/-- An operation acts on the decoder, or presents a command to the transport. -/
theorem exec_cases_of_unit {i : Instr} {s t : State} (h : exec i s = .next t) :
    (i.onDecoder = true ∧ t = s.afterDecoderOp i)
      ∨ i.onDecoder = false ∧ ∃ op addr wdata q valid, t = s.present op addr wdata q valid := by
  rcases exec_cases i s with ⟨_, _, rfl, he⟩ | ⟨_, _, rfl, he⟩ | ⟨_, _, rfl, he⟩ | ⟨rfl, he⟩ | ⟨rfl, he⟩ | ⟨rfl, he⟩ <;>
    cases he.symm.trans h
  · exact .inr ⟨rfl, _, _, _, _, _, rfl⟩
  · exact .inr ⟨rfl, _, _, _, _, _, rfl⟩
  · exact .inr ⟨rfl, _, _, _, _, _, rfl⟩
  · exact .inl ⟨rfl, rfl⟩
  · exact .inl ⟨rfl, rfl⟩
  · exact .inl ⟨rfl, rfl⟩

theorem execAll_of_onDecoder {l : List Instr} (h : ∀ i ∈ l, i.onDecoder = true) (s : State) :
    execAll l s = .next (l.foldl State.afterDecoderOp s) := by
  induction l generalizing s with
  | nil => rfl
  | cons i l ih =>
    obtain ⟨hi, hl⟩ := List.forall_mem_cons.1 h
    rw [execAll, exec_of_onDecoder hi]
    exact ih hl _

theorem onDecoder_of_isEdge {i : Instr} (h : i.isEdge = true) : i.onDecoder = true := by
  cases i <;> first | rfl | cases h

section
variable (s : State) (i : Instr)

@[simp] theorem afterDecoderOp_rt : (s.afterDecoderOp i).rt = s.rt := by cases i <;> rfl
@[simp] theorem afterDecoderOp_motion : (s.afterDecoderOp i).motion = s.motion := by cases i <;> rfl
@[simp] theorem afterDecoderOp_env : (s.afterDecoderOp i).env = s.env := by cases i <;> rfl
@[simp] theorem afterDecoderOp_trace : (s.afterDecoderOp i).obs.trace = s.obs.trace := by cases i <;> rfl
@[simp] theorem afterDecoderOp_rdata : (s.afterDecoderOp i).obs.rdata = s.obs.rdata := by cases i <;> rfl

end

/-! ### The pair and the count after one operation -/

theorem countStep_eq_add (c : Byte) (k : Count) : countStep c k = c + u8 k.delta := stepCounter_eq c k.delta

theorem delta_classifyA : ∀ p : Pair, (classifyA (p ++ (p ^^^ maskA))).delta = edgeUnit p .edgeA := by decide

theorem delta_classifyB : ∀ p : Pair, (classifyB (p ++ (p ^^^ maskB))).delta = edgeUnit p .edgeB := by decide

theorem patternOf_edge (s : State) (mask : Pair) (classify : Pattern → Count) :
    patternOf (s.edge mask classify).qd.hist = currentPair s.qd.hist ++ (currentPair s.qd.hist ^^^ mask) :=
  patternOf_shiftPair ..

theorem vscroll_edge (s : State) (mask : Pair) (classify : Pattern → Count) :
    (s.edge mask classify).qd.vscroll
      = s.qd.vscroll + u8 (classify (currentPair s.qd.hist ++ (currentPair s.qd.hist ^^^ mask))).delta := by
  rw [State.edge_qd, patternOf_shiftPair, countStep_eq_add]

theorem currentPair_afterDecoderOp (s : State) (i : Instr) :
    currentPair (s.afterDecoderOp i).qd.hist = pairAfter (currentPair s.qd.hist) i := by
  cases i with
  | edgeA => exact currentPair_shiftPair ..
  | edgeB => exact currentPair_shiftPair ..
  | drain => rfl
  | sync addr wdata => rfl
  | read addr wdata => rfl
  | write addr wdata => rfl

/-- An edge counts by its signed unit and leaves HSCROLL and what was shown (41_quadrature_decoder.md R171). -/
theorem afterDecoderOp_of_isEdge {i : Instr} (h : i.isEdge = true) (s : State) :
    (s.afterDecoderOp i).qd.vscroll = s.qd.vscroll + u8 (edgeUnit (currentPair s.qd.hist) i)
      ∧ (s.afterDecoderOp i).qd.hscroll = s.qd.hscroll := by
  cases i with
  | edgeA => exact ⟨(vscroll_edge ..).trans (by rw [delta_classifyA]), rfl⟩
  | edgeB => exact ⟨(vscroll_edge ..).trans (by rw [delta_classifyB]), rfl⟩
  | drain => cases h
  | sync addr wdata => cases h
  | read addr wdata => cases h
  | write addr wdata => cases h

/-! ### Sequences of edges -/

/-- A sequence of edges walks the pair and adds the net count (41_quadrature_decoder.md R171, R172). -/
theorem execAll_edges {l : List Instr} (h : ∀ i ∈ l, i.isEdge = true) (s : State) :
    ∃ t, execAll l s = .next t
      ∧ currentPair t.qd.hist = pairWalk (currentPair s.qd.hist) l
      ∧ t.qd.vscroll = s.qd.vscroll + u8 (netCount (currentPair s.qd.hist) l)
      ∧ t.qd.hscroll = s.qd.hscroll := by
  refine ⟨_, execAll_of_onDecoder (fun i hi => onDecoder_of_isEdge (h i hi)) s, ?_⟩
  induction l generalizing s with
  | nil => simp [pairWalk, netCount, u8]
  | cons i l ih =>
    obtain ⟨hi, hl⟩ := List.forall_mem_cons.1 h
    obtain ⟨hpair, hcount, hh⟩ := ih hl (s.afterDecoderOp i)
    obtain ⟨hcount₁, hh₁⟩ := afterDecoderOp_of_isEdge hi s
    rw [currentPair_afterDecoderOp] at hpair hcount
    refine ⟨hpair, ?_, hh.trans hh₁⟩
    rw [List.foldl_cons, hcount, hcount₁, netCount, u8_add, BitVec.add_assoc]

theorem netCount_bounce : ∀ (p : Pair) (i : Instr), i.isEdge = true →
    netCount p [i, i] = 0 ∧ pairWalk p [i, i] = p := by
  intro p i h
  cases i with
  | edgeA => revert p; decide
  | edgeB => revert p; decide
  | drain => cases h
  | sync addr wdata => cases h
  | read addr wdata => cases h
  | write addr wdata => cases h

/-- Settles O40: the second edge's unit is the first's negated, and it flips the bit back. -/
theorem bounceCancels : Obligations.BounceCancels := by
  intro s i hi
  obtain ⟨t, ht, hpair, hcount, hh⟩ := execAll_edges (l := [i, i]) (by simp [hi]) s
  obtain ⟨hnet, hwalk⟩ := netCount_bounce (currentPair s.qd.hist) i hi
  refine ⟨t, ht, ?_, hpair.trans hwalk, hh⟩
  rw [hcount, hnet]
  exact BitVec.add_zero _

/-- Settles O41: the two walks from pair 00. -/
theorem fullCycleCountsFour : Obligations.FullCycleCountsFour := by
  intro s h0
  obtain ⟨t, ht, hpt, hct, -⟩ := execAll_edges (l := [.edgeA, .edgeB, .edgeA, .edgeB]) (by decide) s
  obtain ⟨u, hu, hpu, hcu, -⟩ := execAll_edges (l := [.edgeB, .edgeA, .edgeB, .edgeA]) (by decide) s
  rw [h0] at hpt hct hpu hcu
  exact ⟨⟨t, ht, hct, hpt⟩, u, hu, hcu.trans (BitVec.sub_eq_add_neg s.qd.vscroll 4).symm, hpu⟩

/-- Settles O12: from pair 00 line A first counts twice up and line B first twice down. -/
theorem ordersOfSimultaneousEdgesDiffer : Obligations.OrdersOfSimultaneousEdgesDiffer := by
  intro s h0
  obtain ⟨t, ht, hpt, hct, -⟩ := execAll_edges (l := [.edgeA, .edgeB]) (by decide) s
  obtain ⟨u, hu, hpu, hcu, -⟩ := execAll_edges (l := [.edgeB, .edgeA]) (by decide) s
  rw [h0] at hpt hct hpu hcu
  exact ⟨t, u, ht, hu, hct, hcu.trans (BitVec.sub_eq_add_neg s.qd.vscroll 2).symm, hpt, hpu⟩

/-! ### The inferred pair against the actual pair -/

theorem xor_right_comm : ∀ p d m : Pair, p ^^^ d ^^^ m = p ^^^ m ^^^ d := by decide

theorem xor_xor_self : ∀ p d : Pair, p ^^^ d ^^^ p = d := by decide

/-- The inferred pair is the actual one with their difference. -/
theorem eq_xor_difference : ∀ inferred actual : Pair, inferred = actual ^^^ (inferred ^^^ actual) := by decide

theorem pairAfter_xor (p d : Pair) (i : Instr) : pairAfter (p ^^^ d) i = pairAfter p i ^^^ d := by
  cases i with
  | edgeA => exact xor_right_comm p d _
  | edgeB => exact xor_right_comm p d _
  | drain => rfl
  | sync addr wdata => rfl
  | read addr wdata => rfl
  | write addr wdata => rfl

theorem pairWalk_xor (p d : Pair) (l : List Instr) : pairWalk (p ^^^ d) l = pairWalk p l ^^^ d := by
  induction l generalizing p with
  | nil => rfl
  | cons i l ih => rw [pairWalk, pairAfter_xor, ih, pairWalk]

/-- The sign by which a decoder counts whose inferred pair differs from the actual one by `d`
(41_quadrature_decoder.md R173). -/
def signOf (d : Pair) : Int := if d = 0b00 ∨ d = 0b11 then 1 else -1

theorem edgeUnit_xor (p d : Pair) (i : Instr) : edgeUnit (p ^^^ d) i = signOf d * edgeUnit p i := by
  cases i with
  | edgeA => revert p d; decide
  | edgeB => revert p d; decide
  | drain => simp [edgeUnit]
  | sync addr wdata => simp [edgeUnit]
  | read addr wdata => simp [edgeUnit]
  | write addr wdata => simp [edgeUnit]

theorem netCount_xor (p d : Pair) (l : List Instr) : netCount (p ^^^ d) l = signOf d * netCount p l := by
  induction l generalizing p with
  | nil => simp [netCount]
  | cons i l ih => rw [netCount, pairAfter_xor, ih, edgeUnit_xor, netCount, Int.mul_add]

/-- Settles O42: the walk and the net count from the inferred pair, as the actual pair with a constant difference. -/
theorem inferredPairDecidesTheSign : Obligations.InferredPairDecidesTheSign := by
  intro l s actual hl
  obtain ⟨t, ht, hpair, hcount, -⟩ := execAll_edges hl s
  have hinferred := eq_xor_difference (currentPair s.qd.hist) actual
  generalize currentPair s.qd.hist ^^^ actual = d at hinferred
  rw [hinferred, pairWalk_xor] at hpair
  rw [hinferred, netCount_xor] at hcount
  refine ⟨t, ht, ?_, fun hd => ?_, fun hd => ?_⟩
  · rw [hpair, xor_xor_self]
  · rw [hcount, u8_add, u8_s8, signOf, if_pos hd, Int.one_mul]
  · have hsign : signOf d = -1 := by rcases hd with rfl | rfl <;> rfl
    rw [hcount, Int.sub_eq_add_neg, u8_add, u8_s8, hsign, Int.neg_one_mul]

/-! ### The transition tables -/

theorem countStep_row (c : Byte) :
    countStep c .up = c + 1 ∧ countStep c .down = c - 1 ∧ countStep c .hold = c := by
  refine ⟨countStep_eq_add c .up, ?_, countStep_hold c⟩
  rw [countStep_eq_add, BitVec.sub_eq_add_neg]
  rfl

/-- A reset machine whose decoder holds a given current pair. -/
def stateAtPair (p : Pair) : State := { State.reset with qd := { hist := shiftPair 0 p, vscroll := 0, hscroll := 0 } }

theorem currentPair_stateAtPair (p : Pair) : currentPair (stateAtPair p).qd.hist = p := currentPair_shiftPair 0 p

/-- The patterns an operation produces that is one run of `State.edge`, pair by pair. -/
theorem exists_patternOf_iff {i : Instr} {mask : Pair} {classify : Pattern → Count}
    (hexec : ∀ s, exec i s = .next (s.edge mask classify)) (pat : Pattern) :
    (∃ s t, exec i s = .next t ∧ patternOf t.qd.hist = pat) ↔ ∃ p : Pair, p ++ (p ^^^ mask) = pat := by
  constructor
  · rintro ⟨s, t, ht, rfl⟩
    cases (hexec s).symm.trans ht
    exact ⟨_, (patternOf_edge s mask classify).symm⟩
  · rintro ⟨p, rfl⟩
    refine ⟨stateAtPair p, _, hexec _, ?_⟩
    rw [patternOf_edge, currentPair_stateAtPair]

/-- How a counter moves by a table whose rows up and down are those of two pairs of patterns. -/
theorem countStep_of_table {classify : Pattern → Count} {up up' down down' : Pattern}
    (htable : ∀ pat, (pat = up ∨ pat = up' → classify pat = .up) ∧ (pat = down ∨ pat = down' → classify pat = .down)
      ∧ (pat ∉ [up, up', down, down'] → classify pat = .hold)) (c : Byte) (pat : Pattern) :
    (pat = up ∨ pat = up' → countStep c (classify pat) = c + 1)
      ∧ (pat = down ∨ pat = down' → countStep c (classify pat) = c - 1)
      ∧ (pat ∉ [up, up', down, down'] → countStep c (classify pat) = c) := by
  obtain ⟨hup, hdown, hhold⟩ := htable pat
  obtain ⟨rup, rdown, rhold⟩ := countStep_row c
  exact ⟨fun h => by rw [hup h, rup], fun h => by rw [hdown h, rdown], fun h => by rw [hhold h, rhold]⟩

theorem classifyA_table : ∀ pat : Pattern, (pat = 0b0010 ∨ pat = 0b1101 → classifyA pat = .up)
    ∧ (pat = 0b0111 ∨ pat = 0b1000 → classifyA pat = .down)
    ∧ (pat ∉ ([0b0010, 0b1101, 0b0111, 0b1000] : List Pattern) → classifyA pat = .hold) := by decide

theorem classifyB_table : ∀ pat : Pattern, (pat = 0b1011 ∨ pat = 0b0100 → classifyB pat = .up)
    ∧ (pat = 0b1110 ∨ pat = 0b0001 → classifyB pat = .down)
    ∧ (pat ∉ ([0b1011, 0b0100, 0b1110, 0b0001] : List Pattern) → classifyB pat = .hold) := by decide

theorem exists_append_maskA_iff : ∀ pat : Pattern, (∃ p : Pair, p ++ (p ^^^ maskA) = pat)
    ↔ pat ∈ ([0b0010, 0b1101, 0b0111, 0b1000] : List Pattern) := by decide

theorem exists_append_maskB_iff : ∀ pat : Pattern, (∃ p : Pair, p ++ (p ^^^ maskB) = pat)
    ↔ pat ∈ ([0b1011, 0b0100, 0b1110, 0b0001] : List Pattern) := by decide

/-- Settles O37: each handler's rows by its table, the two lists over the 16 patterns, and the patterns produced pair by
pair. -/
theorem handlersFollowTheTransitionTables : Obligations.HandlersFollowTheTransitionTables :=
  ⟨fun s => ⟨⟨_, exec_edgeA s, rfl, countStep_of_table classifyA_table s.qd.vscroll _⟩,
      ⟨_, exec_edgeB s, rfl, countStep_of_table classifyB_table s.qd.vscroll _⟩⟩,
    countStep_row, by decide, by decide,
    fun pat => (exists_patternOf_iff exec_edgeA pat).trans (exists_append_maskA_iff pat),
    fun pat => (exists_patternOf_iff exec_edgeB pat).trans (exists_append_maskB_iff pat)⟩

/-! ### The closed form -/

theorem edgeUnit_eq_ite : ∀ p : Pair,
    edgeUnit p .edgeA = (if p.getLsbD 1 = p.getLsbD 0 then 1 else -1)
      ∧ edgeUnit p .edgeB = (if p.getLsbD 1 = p.getLsbD 0 then -1 else 1) := by decide

theorem getLsbD_currentPair (hist : Byte) {i : Nat} (h : i < 2) : (currentPair hist).getLsbD i = hist.getLsbD i := by
  rw [currentPair, BitVec.getLsbD_extractLsb', decide_eq_true h, Bool.true_and, Nat.zero_add]

theorem s8_add_u8 (c : Byte) (n : Int) : s8 (c + u8 n) = wrap8 (s8 c + n) := by
  rw [wrap8, u8_add, u8_s8]

/-- Settles O39: an edge counts its unit, and the unit of a pair is the closed form. -/
theorem everyEdgeCountsOne : Obligations.EveryEdgeCountsOne := by
  intro s
  obtain ⟨hunitA, hunitB⟩ := edgeUnit_eq_ite (currentPair s.qd.hist)
  obtain ⟨hcountA, -⟩ := afterDecoderOp_of_isEdge (i := .edgeA) rfl s
  obtain ⟨hcountB, -⟩ := afterDecoderOp_of_isEdge (i := .edgeB) rfl s
  rw [getLsbD_currentPair _ (by decide), getLsbD_currentPair _ (by decide)] at hunitA hunitB
  refine ⟨⟨_, exec_of_onDecoder rfl s, ?_⟩, _, exec_of_onDecoder rfl s, ?_⟩
  · rw [hcountA, s8_add_u8, hunitA]
  · rw [hcountB, s8_add_u8, hunitB]

/-! ### What DRAIN delivers -/

/-- Settles O43: DRAIN is one run of `State.drainScroll`. -/
theorem drainDeliversAndClears : Obligations.DrainDeliversAndClears := fun _ => rfl

theorem verticalSum_append (l l' : List (Int × Int)) : verticalSum (l ++ l') = verticalSum l + verticalSum l' := by
  rw [verticalSum, List.map_append, List.sum_append, verticalSum, verticalSum]

/-- What DRAIN has delivered and VSCROLL together, modulo 256 (42_host_operations.md R191). -/
def State.verticalTotal (s : State) : Byte := u8 (verticalSum s.obs.scroll) + s.qd.vscroll

theorem verticalTotal_eq (s : State) : s.verticalTotal = u8 (verticalSum s.obs.scroll + s8 s.qd.vscroll) := by
  rw [State.verticalTotal, u8_add, u8_s8]

theorem verticalTotal_congr {s t : State} (hqd : t.qd = s.qd) (hscroll : t.obs.scroll = s.obs.scroll) :
    t.verticalTotal = s.verticalTotal := by
  rw [State.verticalTotal, hqd, hscroll, State.verticalTotal]

theorem verticalTotal_drainScroll (s : State) : s.drainScroll.verticalTotal = s.verticalTotal := by
  have hnew : verticalSum [(s8 s.qd.vscroll, s8 s.qd.hscroll)] = s8 s.qd.vscroll := Int.add_zero _
  rw [State.verticalTotal, State.drainScroll_obs, State.drainScroll_qd, verticalSum_append, hnew, u8_add, u8_s8]
  exact BitVec.add_zero _

/-- Only the unit of an edge changes the total: DRAIN moves VSCROLL to what has been delivered. -/
theorem verticalTotal_afterDecoderOp (s : State) (i : Instr) :
    (s.afterDecoderOp i).verticalTotal = s.verticalTotal + u8 (edgeUnit (currentPair s.qd.hist) i) := by
  have hedge (hi : i.isEdge = true) (hobs : (s.afterDecoderOp i).obs = s.obs) :
      (s.afterDecoderOp i).verticalTotal = s.verticalTotal + u8 (edgeUnit (currentPair s.qd.hist) i) := by
    obtain ⟨hcount, -⟩ := afterDecoderOp_of_isEdge hi s
    rw [State.verticalTotal, hobs, hcount, ← BitVec.add_assoc, State.verticalTotal]
  cases i with
  | edgeA => exact hedge rfl rfl
  | edgeB => exact hedge rfl rfl
  | drain => exact (verticalTotal_drainScroll s).trans (BitVec.add_zero _).symm
  | sync addr wdata => exact (BitVec.add_zero _).symm
  | read addr wdata => exact (BitVec.add_zero _).symm
  | write addr wdata => exact (BitVec.add_zero _).symm

theorem verticalTotal_foldl (l : List Instr) (s : State) :
    (l.foldl State.afterDecoderOp s).verticalTotal = s.verticalTotal + u8 (netCount (currentPair s.qd.hist) l) := by
  induction l generalizing s with
  | nil => exact (BitVec.add_zero _).symm
  | cons i l ih =>
    rw [List.foldl_cons, ih, verticalTotal_afterDecoderOp, currentPair_afterDecoderOp, netCount, u8_add,
      BitVec.add_assoc]

theorem exists_scroll_foldl (l : List Instr) (s : State) :
    ∃ new, (l.foldl State.afterDecoderOp s).obs.scroll = s.obs.scroll ++ new ∧ new.length = l.count .drain := by
  induction l generalizing s with
  | nil => exact ⟨[], (List.append_nil _).symm, rfl⟩
  | cons i l ih =>
    obtain ⟨new, hnew, hlen⟩ := ih (s.afterDecoderOp i)
    by_cases hi : i = .drain
    · subst hi
      refine ⟨_ :: new, hnew.trans (List.append_assoc ..), ?_⟩
      rw [List.length_cons, hlen, List.count_cons_self]
    · refine ⟨new, ?_, by rw [List.count_cons_of_ne hi, hlen]⟩
      cases i <;> first | exact hnew | exact absurd rfl hi

/-- Settles O44: the total along the sequence, less what had been delivered before it. -/
theorem everyCountIsInOneDrain : Obligations.EveryCountIsInOneDrain := by
  intro l s hl
  obtain ⟨new, hnew, hlen⟩ := exists_scroll_foldl l s
  refine ⟨_, new, execAll_of_onDecoder hl s, hnew, hlen, ?_⟩
  have htotal := verticalTotal_foldl l s
  rw [State.verticalTotal, State.verticalTotal, hnew, verticalSum_append, u8_add, BitVec.add_assoc,
    BitVec.add_assoc] at htotal
  rw [u8_add, u8_s8, u8_add, u8_s8]
  exact (BitVec.add_right_inj _).1 htotal

/-! ### What a step does to the units -/

section
variable (s : State) (op : BitVec 2) (addr wdata : Byte) (q : SeqPos) (valid : Bool)

@[simp] theorem present_qd : (s.present op addr wdata q valid).qd = s.qd := by
  unfold State.present; split <;> rfl

@[simp] theorem present_motion : (s.present op addr wdata q valid).motion = s.motion := by
  unfold State.present; split <;> rfl

@[simp] theorem present_obs : (s.present op addr wdata q valid).obs = s.obs := by
  unfold State.present; split <;> rfl

end

/-- An operation changes the decoder, and what DRAIN has delivered, as an operation on the decoder does. -/
theorem exec_decoder {i : Instr} {s t : State} (h : exec i s = .next t) :
    t.qd = (s.afterDecoderOp i).qd ∧ t.obs.scroll = (s.afterDecoderOp i).obs.scroll ∧ t.motion = s.motion := by
  obtain ⟨-, rfl⟩ | ⟨hi, _, _, _, _, _, rfl⟩ := exec_cases_of_unit h
  · exact ⟨rfl, rfl, afterDecoderOp_motion s i⟩
  · rw [afterDecoderOp_of_not_onDecoder hi, present_qd, present_obs, present_motion]
    exact ⟨rfl, rfl, rfl⟩

/-- A companion step changes the Motion Accumulator, what MDRAIN has delivered and the count of free values only. -/
theorem execHostStep_frame {k : HostStep} {s t : State} (h : execHostStep k s = .next t) :
    t.rt = s.rt ∧ t.qd = s.qd ∧ t.obs.scroll = s.obs.scroll := by
  obtain ⟨-, ⟨-, -, rfl⟩ | ⟨-, -, rfl⟩ | ⟨-, -, rfl⟩ | ⟨-, -, rfl⟩ | ⟨-, rfl⟩⟩ := execHostStep_cases h <;>
    exact ⟨rfl, rfl, rfl⟩

/-- What a step does to the decoder: the operation it takes acts as from the state itself, and without one nothing of
the decoder changes. -/
theorem step_decoder {s t : State} (h : step s = .next t) :
    (∃ i, s.fetch.1 = .run i ∧ t.qd = (s.afterDecoderOp i).qd
        ∧ t.obs.scroll = (s.afterDecoderOp i).obs.scroll)
      ∨ (∀ i, s.fetch.1 ≠ .run i) ∧ t.qd = s.qd ∧ t.obs.scroll = s.obs.scroll := by
  obtain ⟨l, n, u, rfl, ⟨hf, rfl⟩ | ⟨i, hf, he⟩ | ⟨k, hf, he⟩ | ⟨hf, rfl⟩⟩ := step_cases h
  · obtain ⟨hqd, -, -, -, -, -, -, -, hscroll, -⟩ :=
      microStep_frame { s with env := { s.env with inputs := l, orderNo := n } }
    exact .inr ⟨by simp [hf], hqd, hscroll⟩
  · obtain ⟨hqd, hscroll, -⟩ := exec_decoder he
    refine .inl ⟨i, by rw [hf], hqd.trans ?_, hscroll.trans ?_⟩ <;> cases i <;> rfl
  · obtain ⟨-, hqd, hscroll⟩ := execHostStep_frame he
    exact .inr ⟨by simp [hf], hqd, hscroll⟩
  · exact .inr ⟨by simp [hf], rfl, rfl⟩

theorem action_of_ne_run {a : Action} (h : ∀ i, a ≠ .run i) (p : Pair) : a.pairAfter p = p ∧ a.unit p = 0 := by
  cases a with
  | run i => exact absurd rfl (h i)
  | micro => exact ⟨rfl, rfl⟩
  | host k => exact ⟨rfl, rfl⟩
  | nothing => exact ⟨rfl, rfl⟩

/-- The inferred pair after a step moves as a pair does that the step's edge moves. -/
theorem step_currentPair {s t : State} (h : step s = .next t) :
    currentPair t.qd.hist = s.fetch.1.pairAfter (currentPair s.qd.hist) := by
  obtain ⟨i, hf, hqd, -⟩ | ⟨hf, hqd, -⟩ := step_decoder h
  · rw [hf, hqd, currentPair_afterDecoderOp, Action.pairAfter]
  · obtain ⟨hpair, -⟩ := action_of_ne_run hf (currentPair s.qd.hist)
    rw [hqd, hpair]

theorem action_pairAfter_xor (a : Action) (p d : Pair) : a.pairAfter (p ^^^ d) = a.pairAfter p ^^^ d := by
  cases a with
  | run i => exact pairAfter_xor p d i
  | micro => rfl
  | host k => rfl
  | nothing => rfl

/-- Settles O57: the step moves both pairs alike. -/
theorem stepsKeepTheInferredPairsDifference : Obligations.StepsKeepTheInferredPairsDifference := by
  intro s t actual h
  have hinferred := eq_xor_difference (currentPair s.qd.hist) actual
  rw [step_currentPair h]
  generalize currentPair s.qd.hist ^^^ actual = d at hinferred
  rw [hinferred, action_pairAfter_xor, xor_xor_self]

/-- Settles O58: the total changes by the unit of the operation taken. -/
theorem stepsConserveTheVerticalCount : Obligations.StepsConserveTheVerticalCount := by
  intro s t h
  rw [u8_add (verticalSum s.obs.scroll + s8 s.qd.vscroll), ← verticalTotal_eq, ← verticalTotal_eq]
  obtain ⟨i, hf, hqd, hscroll⟩ | ⟨hf, hqd, hscroll⟩ := step_decoder h
  · rw [hf, verticalTotal_congr hqd hscroll, verticalTotal_afterDecoderOp, Action.unit]
  · obtain ⟨-, hunit⟩ := action_of_ne_run hf (currentPair s.qd.hist)
    rw [hunit, verticalTotal_congr hqd hscroll]
    exact (BitVec.add_zero _).symm

/-- Settles O45: of the operations DRAIN alone writes HSCROLL, and it writes 0. -/
theorem horizontalScrollStaysZero : Obligations.HorizontalScrollStaysZero := by
  intro s t h
  have hcases : t.qd.hscroll = s.qd.hscroll ∨ s.fetch.1 = .run .drain ∧ t.qd.hscroll = 0 := by
    obtain ⟨i, hf, hqd, -⟩ | ⟨-, hqd, -⟩ := step_decoder h
    · by_cases hi : i = .drain
      · subst hi
        exact .inr ⟨hf, by rw [hqd]; rfl⟩
      · rw [hqd]
        cases i <;> first | exact .inl rfl | exact absurd rfl hi
    · exact .inl (by rw [hqd])
  rcases hcases with hkeep | ⟨hf, hzero⟩
  · exact ⟨fun h0 => hkeep.trans h0, fun hne => absurd hkeep hne⟩
  · exact ⟨fun _ => hzero, fun _ => ⟨hzero, hf⟩⟩

/-- Settles O46: of the operations the two handlers alone change HIST. -/
theorem onlyHandlersWriteHistory : Obligations.OnlyHandlersWriteHistory := by
  intro s t h hne
  obtain ⟨i, hf, hqd, -⟩ | ⟨-, hqd, -⟩ := step_decoder h
  · rw [hqd] at hne
    cases i with
    | edgeA => exact .inl hf
    | edgeB => exact .inr hf
    | drain => exact absurd rfl hne
    | sync addr wdata => exact absurd rfl hne
    | read addr wdata => exact absurd rfl hne
    | write addr wdata => exact absurd rfl hne
  · exact absurd (by rw [hqd]) hne

/-- Settles O47: no other agent's move changes MX or MY. -/
theorem onlyCompanionStepsWriteMotion : Obligations.OnlyCompanionStepsWriteMotion := by
  intro s t h hne
  obtain ⟨l, n, u, rfl, ⟨-, rfl⟩ | ⟨i, -, he⟩ | ⟨k, hf, -⟩ | ⟨-, rfl⟩⟩ := step_cases h
  · obtain ⟨-, hmotion, -⟩ := microStep_frame { s with env := { s.env with inputs := l, orderNo := n } }
    exact absurd hmotion hne
  · obtain ⟨-, -, hmotion⟩ := exec_decoder he
    exact absurd hmotion hne
  · exact ⟨k, by rw [hf]⟩
  · exact absurd rfl hne

end Sys2Proof.Machine
end

section
/-! PROOFS. The sequencer: the micro-steps left of an operation, the run to its end, and what one micro-step writes
(10_state.md R21, R26, R31; 40_register_transport.md R121): settles O16, O22, O26, O28, O29 and
O30. -/

namespace Sys2Proof.Machine

/-! ### The micro-steps left -/

/-- The micro-steps the operation in progress still performs (10_state.md R26). -/
def SeqPos.todo : SeqPos → List MicroStep
  | .idle => []
  | .sync k => syncSteps.drop k
  | .read k => readSteps.drop k
  | .write k => writeSteps.drop k

theorem length_todo (q : SeqPos) : q.todo.length = q.remaining := by
  cases q with
  | idle => rfl
  | sync k => rw [SeqPos.todo, List.length_drop, syncSteps_length, SeqPos.remaining]
  | read k => rw [SeqPos.todo, List.length_drop, readSteps_length, SeqPos.remaining]
  | write k => rw [SeqPos.todo, List.length_drop, writeSteps_length, SeqPos.remaining]

/-- A position's list is its micro-step and the list of the position after it. -/
theorem drop_eq_cons_todo {l : List MicroStep} {n k : Nat} {m : MicroStep} (hlen : l.length = n) (hm : l[k]? = some m)
    (next : k + 1 < n → SeqPos) (hnext : ∀ h, (next h).todo = l.drop (k + 1)) :
    l.drop k = m :: (if h : k + 1 < n then next h else .idle).todo := by
  obtain ⟨hk, rfl⟩ := List.getElem?_eq_some_iff.1 hm
  rw [List.drop_eq_getElem_cons hk]
  split
  next h => rw [hnext h]
  next h => rw [List.drop_eq_nil_of_le (by omega), SeqPos.todo]

theorem todo_eq_cons {q : SeqPos} {m : MicroStep} (h : q.microStep? = some m) : q.todo = m :: q.advance.todo := by
  cases q with
  | idle => cases h
  | sync k => exact drop_eq_cons_todo syncSteps_length h _ fun _ => rfl
  | read k => exact drop_eq_cons_todo readSteps_length h _ fun _ => rfl
  | write k => exact drop_eq_cons_todo writeSteps_length h _ fun _ => rfl

theorem todo_advance (q : SeqPos) : q.advance.todo = q.todo.tail := by
  by_cases hq : q = .idle
  · subst hq; rfl
  · obtain ⟨m, hm⟩ := microStep?_isSome hq
    rw [todo_eq_cons hm, List.tail_cons]

theorem remaining_eq_zero_iff (q : SeqPos) : q.remaining = 0 ↔ q = .idle := by
  cases q with
  | idle => exact ⟨fun _ => rfl, fun _ => rfl⟩
  | sync k => exact ⟨fun h => absurd h (Nat.sub_ne_zero_of_lt k.isLt), fun h => by cases h⟩
  | read k => exact ⟨fun h => absurd h (Nat.sub_ne_zero_of_lt k.isLt), fun h => by cases h⟩
  | write k => exact ⟨fun h => absurd h (Nat.sub_ne_zero_of_lt k.isLt), fun h => by cases h⟩

theorem remaining_le (q : SeqPos) : q.remaining ≤ 85 := by
  cases q <;> simp only [SeqPos.remaining] <;> omega

/-! ### Runs of micro-steps -/

theorem microSteps_succ (s : State) (n : Nat) : s.microSteps (n + 1) = (s.microSteps n).microStep :=
  microSteps_add s n 1

theorem todo_microSteps (s : State) (n : Nat) : (s.microSteps n).rt.seq.todo = s.rt.seq.todo.drop n := by
  induction n with
  | zero => rfl
  | succ n ih => rw [microSteps_succ, microStep_seq, todo_advance, ih, List.tail_drop]

theorem busy_microSteps_iff (s : State) (n : Nat) : (s.microSteps n).busy = true ↔ n < s.rt.seq.remaining := by
  have hlen := length_todo (s.microSteps n).rt.seq
  rw [todo_microSteps, List.length_drop, length_todo] at hlen
  rw [← Bool.not_eq_false, busy_eq_false_iff, ← remaining_eq_zero_iff]
  omega

/-- Settles O29: each micro-step takes one off the list, and BUSY is 1 while the list is not empty. -/
theorem transportRunsToCompletion : Obligations.TransportRunsToCompletion := by
  intro s
  refine ⟨remaining_le _, fun n => (busy_microSteps_iff s n).2, ?_⟩
  rw [← Bool.not_eq_true, busy_microSteps_iff]
  exact Nat.lt_irrefl _

theorem perform_setSeq (s : State) (q : SeqPos) (m : MicroStep) :
    (s.setSeq q).perform m = (s.perform m).setSeq q := by
  cases m <;> rfl

theorem foldl_perform_setSeq (l : List MicroStep) (s : State) (q : SeqPos) :
    l.foldl State.perform (s.setSeq q) = (l.foldl State.perform s).setSeq q :=
  List.foldl_hom (·.setSeq q) fun s m => perform_setSeq s q m

/-- An operation left to itself performs the micro-steps of its list, one after another, and ends idle
(40_register_transport.md R121). -/
theorem microSteps_remaining {n : Nat} {s : State} (h : s.rt.seq.remaining = n) :
    s.microSteps n = (s.rt.seq.todo.foldl State.perform s).setSeq .idle := by
  induction n generalizing s with
  | zero =>
    rw [remaining_eq_zero_iff] at h
    rw [h, SeqPos.todo, List.foldl_nil, ← h]
    rfl
  | succ n ih =>
    have hne : s.rt.seq ≠ .idle := fun hidle => by
      rw [(remaining_eq_zero_iff _).2 hidle] at h
      cases h
    obtain ⟨m, hm⟩ := microStep?_isSome hne
    have hlen := congrArg List.length (todo_eq_cons hm)
    rw [length_todo, List.length_cons, length_todo, h] at hlen
    have hstep : s.microStep.rt.seq = s.rt.seq.advance := microStep_seq s
    rw [State.microSteps, ih (by rw [hstep]; omega), hstep, microStep_of_some hm, foldl_perform_setSeq, todo_eq_cons hm,
      List.foldl_cons]
    rfl

/-! ### The command latch and SR -/

/-- Settles O26: `present_of_busy`, command by command. -/
theorem commandWhileBusyIsTurnedAway : Obligations.CommandWhileBusyIsTurnedAway :=
  fun _ _ _ h => ⟨congrArg _ (present_of_busy h ..), congrArg _ (present_of_busy h ..),
    congrArg _ (present_of_busy h ..)⟩

/-- While BUSY no operation changes the transport: commands are turned away and the others are the decoder's. -/
theorem exec_rt_of_busy {i : Instr} {s t : State} (hb : s.busy = true) (h : exec i s = .next t) : t.rt = s.rt := by
  obtain ⟨-, rfl⟩ | ⟨-, _, _, _, _, _, rfl⟩ := exec_cases_of_unit h
  · exact afterDecoderOp_rt s i
  · rw [present_of_busy hb]

/-- Settles O28: while BUSY only a micro-step changes the transport, and none writes the latch. -/
theorem latchHoldsWhileBusy : Obligations.LatchHoldsWhileBusy := by
  intro s t hb h
  obtain ⟨l, n, u, rfl, ⟨-, rfl⟩ | ⟨i, -, he⟩ | ⟨k, -, he⟩ | ⟨-, rfl⟩⟩ := step_cases h
  · obtain ⟨-, -, hop, haddr, hwdata, -⟩ :=
      microStep_frame { s with env := { s.env with inputs := l, orderNo := n } }
    exact ⟨hop, haddr, hwdata⟩
  · rw [exec_rt_of_busy (by exact hb) he]
    exact ⟨rfl, rfl, rfl⟩
  · obtain ⟨hrt, -⟩ := execHostStep_frame he
    rw [hrt]
    exact ⟨rfl, rfl, rfl⟩
  · exact ⟨rfl, rfl, rfl⟩

theorem present_sr (s : State) (op : BitVec 2) (addr wdata : Byte) (q : SeqPos) (valid : Bool) :
    (s.present op addr wdata q valid).rt.sr = s.rt.sr := by
  unfold State.present; split <;> rfl

/-- No operation writes SR. -/
theorem exec_sr {i : Instr} {s t : State} (h : exec i s = .next t) : t.rt.sr = s.rt.sr := by
  obtain ⟨-, rfl⟩ | ⟨-, _, _, _, _, _, rfl⟩ := exec_cases_of_unit h
  · rw [afterDecoderOp_rt]
  · exact present_sr ..

/-- SR after a micro-step, given the level of the data line (40_register_transport.md R130, R131). -/
def MicroStep.srAfter (sr : Byte) (line : Level) : MicroStep → Byte
  | .turnaround => 0
  | .sampleShift => shiftBit sr line
  | .select | .release | .releaseDeliver | .clockLow | .clockHigh | .outputMode | .driveAddr _ | .driveData _
  | .wait _ => sr

theorem perform_sr (s : State) (m : MicroStep) : (s.perform m).rt.sr = m.srAfter s.rt.sr s.sdioLine := by
  cases m <;> rfl

/-- The positions at which a list writes SR. -/
theorem position_of_srWrite {q : SeqPos} {m : MicroStep} (hq : q.microStep? = some m)
    (hm : m = .turnaround ∨ m = .sampleShift) :
    ∃ k, q = .read k ∧ (k.val = 43 ∨ ∃ j : Fin 8, k.val = 46 + 4 * j.val) := by
  have hsync : ∀ m ∈ syncSteps, ¬(m = .turnaround ∨ m = .sampleShift) := by decide
  have hwrite : ∀ m ∈ writeSteps, ¬(m = .turnaround ∨ m = .sampleShift) := by decide
  have hread : ∀ k : Fin 78, ∀ m ∈ readSteps[k.val]?, m = .turnaround ∨ m = .sampleShift →
      k.val = 43 ∨ ∃ j : Fin 8, k.val = 46 + 4 * j.val := by decide
  cases q with
  | idle => cases hq
  | sync k => exact absurd hm (hsync m (List.mem_of_getElem? hq))
  | read k => exact ⟨k, rfl, hread k m hq hm⟩
  | write k => exact absurd hm (hwrite m (List.mem_of_getElem? hq))

theorem microStep_sr_ne {s : State} (h : s.microStep.rt.sr ≠ s.rt.sr) :
    ∃ m, s.rt.seq.microStep? = some m ∧ (m = .turnaround ∨ m = .sampleShift) := by
  by_cases hidle : s.rt.seq = .idle
  · rw [microStep_of_idle hidle] at h
    exact absurd rfl h
  obtain ⟨m, hm⟩ := microStep?_isSome hidle
  rw [microStep_of_some hm, State.setSeq_rt, perform_sr] at h
  refine ⟨m, hm, ?_⟩
  cases m <;> first | exact .inl rfl | exact .inr rfl | exact absurd rfl h

/-- Settles O30: of all steps a micro-step alone writes SR, and the writing ones stand in READ's list alone. -/
theorem onlyAReadWritesSr : Obligations.OnlyAReadWritesSr := by
  intro s t h hne
  obtain ⟨l, n, u, rfl, ⟨hf, rfl⟩ | ⟨i, -, he⟩ | ⟨k, -, he⟩ | ⟨-, rfl⟩⟩ := step_cases h
  · obtain ⟨m, hm, hwrites⟩ := microStep_sr_ne hne
    exact ⟨by rw [hf], position_of_srWrite hm hwrites⟩
  · exact absurd (exec_sr he) hne
  · obtain ⟨hrt, -⟩ := execHostStep_frame he
    exact absurd (by rw [hrt]) hne
  · exact absurd rfl hne

/-! ### The lists, row by row -/

/-- Settles O16: each slot is five or four rows of the list. -/
theorem readMicroStepTable : Obligations.ReadMicroStepTable :=
  ⟨readSteps_length, rfl, by decide, rfl, by decide, rfl⟩

/-- Settles O22: as O16, with sixteen slots of five rows. -/
theorem writeMicroStepTable : Obligations.WriteMicroStepTable :=
  ⟨writeSteps_length, rfl, by decide, by decide, rfl⟩

end Sys2Proof.Machine
end

section
/-! PROOFS. Operations due in one instant, and the decoder's operations between the micro-steps of the transport
(60_exceptions.md R215; 20_memory.md R74): settles O11, O52 and O53. -/

namespace Sys2Proof.Machine

/-! ### Runs -/

/-- `k` steps of the machine, at the model's own state type. -/
def runSteps (k : Nat) (s : State) : Host.Outcome State Fault Refusal := Host.Core.run Sys2Proof.core k s

theorem runSteps_zero (s : State) : runSteps 0 s = .next s := rfl

theorem runSteps_succ {s t : State} (h : step s = .next t) (k : Nat) : runSteps (k + 1) s = runSteps k t := by
  have hcore : Sys2Proof.core.step s = .next t := h
  unfold runSteps
  simp only [Host.Core.run, hcore] <;> rfl

theorem runSteps_succ_refused {s : State} {r : Refusal} (h : step s = .refused r) (k : Nat) :
    runSteps (k + 1) s = .refused r := by
  have hcore : Sys2Proof.core.step s = .refused r := h
  unfold runSteps
  simp only [Host.Core.run, hcore] <;> rfl

theorem runSteps_add {s t : State} {m : Nat} (h : runSteps m s = .next t) (n : Nat) :
    runSteps (m + n) s = runSteps n t := by
  induction m generalizing s with
  | zero => cases h; rw [Nat.zero_add]
  | succ m ih =>
    rw [Nat.succ_add]
    cases hs : step s with
    | next u =>
      rw [runSteps_succ hs] at h ⊢
      exact ih h
    | fault f => cases f
    | refused r => rw [runSteps_succ_refused hs] at h; cases h

/-! ### The decoder's operations and the environment -/

/-- The state with another count of order choices drawn. -/
def State.withOrderNo (s : State) (n : Nat) : State := { s with env := { s.env with orderNo := n } }

theorem afterDecoderOp_withOrderNo (s : State) (n : Nat) (i : Instr) :
    (s.withOrderNo n).afterDecoderOp i = (s.afterDecoderOp i).withOrderNo n := by
  cases i <;> rfl

theorem afterDecoderOp_withInputs (s : State) (l : List Input) (i : Instr) :
    (s.withInputs l).afterDecoderOp i = (s.afterDecoderOp i).withInputs l := by
  cases i <;> rfl

theorem foldl_afterDecoderOp_withOrderNo (ops : List Instr) (s : State) (n : Nat) :
    ops.foldl State.afterDecoderOp (s.withOrderNo n) = (ops.foldl State.afterDecoderOp s).withOrderNo n :=
  List.foldl_hom (·.withOrderNo n) fun s i => afterDecoderOp_withOrderNo s n i

theorem foldl_afterDecoderOp_withInputs (ops : List Instr) (s : State) (l : List Input) :
    ops.foldl State.afterDecoderOp (s.withInputs l) = (ops.foldl State.afterDecoderOp s).withInputs l :=
  List.foldl_hom (·.withInputs l) fun s i => afterDecoderOp_withInputs s l i

/-! ### The operations due in one instant -/

theorem onDecoder_of_mem_dueOps :
    ∀ (evt : BitVec 2) (drn : BitVec 1), ∀ i ∈ dueOps evt drn, i.onDecoder = true := by decide

/-- Taking one operation leaves the others due. -/
theorem portsWithout_eq : ∀ (evt : BitVec 2) (drn : BitVec 1), ∀ i ∈ dueOps evt drn,
    ∃ (evt' : BitVec 2) (drn' : BitVec 1),
      portsWithout evt drn i = .ports evt' drn' ∧ dueOps evt' drn' = (dueOps evt drn).erase i := by decide

/-- Where several operations are due a step takes one of them, whichever the free choice is. -/
theorem step_of_ports_many {s : State} {evt : BitVec 2} {drn : BitVec 1} {rest : List Input}
    (hin : s.env.inputs = .ports evt drn :: rest) (hdue : 2 ≤ (dueOps evt drn).length) :
    ∃ i ∈ dueOps evt drn, step s = exec i (s.withInputs (portsWithout evt drn i :: rest)).drawOrder := by
  match hl : dueOps evt drn, hdue with
  | a :: b :: l, _ =>
    have hlt : Config.dueOrder s.env.orderNo % (l.length + 2) < (a :: b :: l).length := Nat.mod_lt _ (by omega)
    refine ⟨(a :: b :: l).getD (Config.dueOrder s.env.orderNo % (l.length + 2)) a, ?_, ?_⟩
    · rw [List.getD_eq_getElem _ _ hlt]
      exact List.getElem_mem hlt
    · simp only [step, State.fetch, hin, State.fetchPorts, hl]

/-- The steps of an instant take each operation due once, in some order, and then its input. -/
theorem runSteps_ports {k : Nat} {s : State} {evt : BitVec 2} {drn : BitVec 1} {rest : List Input}
    (hin : s.env.inputs = .ports evt drn :: rest) (hlen : (dueOps evt drn).length = k + 1) :
    ∃ (l : List Instr) (n : Nat), l.Perm (dueOps evt drn)
      ∧ runSteps (k + 1) s = .next ((l.foldl State.afterDecoderOp (s.withInputs rest)).withOrderNo n) := by
  induction k generalizing s evt drn with
  | zero =>
    obtain ⟨i, hi⟩ := List.length_eq_one_iff.1 hlen
    have hon : i.onDecoder = true := onDecoder_of_mem_dueOps evt drn i (by rw [hi]; exact List.mem_singleton_self i)
    have hstep := (step_of_ports_singleton hin hi).trans (exec_of_onDecoder hon _)
    refine ⟨[i], s.env.orderNo, by rw [hi], ?_⟩
    rw [runSteps_succ hstep, List.foldl_cons, List.foldl_nil, ← afterDecoderOp_withOrderNo]
    rfl
  | succ k ih =>
    obtain ⟨i, hi, hstep⟩ := step_of_ports_many hin (by omega)
    obtain ⟨evt', drn', hports, hdue⟩ := portsWithout_eq evt drn i hi
    rw [exec_of_onDecoder (onDecoder_of_mem_dueOps evt drn i hi), hports] at hstep
    obtain ⟨l, n, hperm, hrun⟩ := ih (s := (s.withInputs (.ports evt' drn' :: rest)).drawOrder.afterDecoderOp i)
      (evt := evt') (drn := drn') (by rw [afterDecoderOp_env]; rfl) (by rw [hdue, List.length_erase_of_mem hi]; omega)
    rw [hdue] at hperm
    refine ⟨i :: l, n, (hperm.cons i).trans (List.perm_cons_erase hi).symm, ?_⟩
    have hdrawn : (s.withInputs (.ports evt' drn' :: rest)).drawOrder.withInputs rest
        = (s.withInputs rest).withOrderNo (s.env.orderNo + 1) := rfl
    rw [runSteps_succ hstep, hrun, ← afterDecoderOp_withInputs, hdrawn, afterDecoderOp_withOrderNo,
      foldl_afterDecoderOp_withOrderNo, List.foldl_cons]
    rfl

/-- Settles O11: `runSteps_ports` where an operation is due, and one step that takes the input where none is. -/
theorem operationsOfAnInstantRunInSomeOrder : Obligations.OperationsOfAnInstantRunInSomeOrder := by
  intro s evt drn rest hin
  match hdue : (dueOps evt drn).length with
  | 0 =>
    have hnil := List.length_eq_zero_iff.1 hdue
    exact ⟨[], s.withInputs rest, s.env.orderNo, by rw [hnil], rfl, runSteps_succ (step_of_ports_nil hin hnil) 0⟩
  | k + 1 =>
    obtain ⟨l, n, hperm, hrun⟩ := runSteps_ports hin hdue
    have hon : ∀ i ∈ l, i.onDecoder = true := fun i hi => onDecoder_of_mem_dueOps evt drn i (hperm.mem_iff.1 hi)
    have hlen : max 1 l.length = k + 1 := by rw [hperm.length_eq, hdue]; omega
    exact ⟨l, _, n, hperm, execAll_of_onDecoder hon _, by rw [hlen]; exact hrun⟩

/-! ### The decoder's operations and the transport's micro-steps -/

theorem perform_afterDecoderOp (s : State) (m : MicroStep) (i : Instr) :
    (s.afterDecoderOp i).perform m = (s.perform m).afterDecoderOp i := by
  cases i <;> cases m <;> rfl

theorem microStep_afterDecoderOp (s : State) (i : Instr) :
    (s.afterDecoderOp i).microStep = s.microStep.afterDecoderOp i := by
  rw [State.microStep, afterDecoderOp_rt, State.microStep]
  split
  next => rfl
  next m _ => rw [perform_afterDecoderOp]; cases i <;> rfl

theorem microSteps_afterDecoderOp (s : State) (i : Instr) (n : Nat) :
    (s.afterDecoderOp i).microSteps n = (s.microSteps n).afterDecoderOp i := by
  induction n generalizing s with
  | zero => rfl
  | succ n ih => rw [State.microSteps, microStep_afterDecoderOp, ih, State.microSteps]

/-- Settles O52: `exec` of an operation on the decoder is `State.afterDecoderOp`, which commutes with a micro-step. -/
theorem decoderStepsCommuteWithMicroSteps : Obligations.DecoderStepsCommuteWithMicroSteps :=
  fun s i hi => ⟨_, _, exec_of_onDecoder hi s, exec_of_onDecoder hi s.microStep, microStep_afterDecoderOp s i⟩

/-! ### Micro-steps and the inputs still to come -/

theorem taken_withInputs (e : Environment) (l : List Input) :
    ({ e with inputs := l } : Environment).taken = { e.taken with inputs := l } := by
  unfold Environment.taken
  split <;> simp_all

theorem perform_withInputs (s : State) (l : List Input) (m : MicroStep) :
    (s.withInputs l).perform m = (s.perform m).withInputs l := by
  cases m with
  | sampleShift =>
    simp only [State.perform, State.sampleShift, State.withInputs, taken_withInputs]
    split <;> rfl
  | _ => rfl

theorem microStep_withInputs (s : State) (l : List Input) :
    (s.withInputs l).microStep = s.microStep.withInputs l := by
  rw [State.microStep, State.withInputs_rt, State.microStep]
  split
  next => rfl
  next m _ => rw [perform_withInputs]; rfl

theorem microSteps_withInputs (s : State) (l : List Input) (n : Nat) :
    (s.withInputs l).microSteps n = (s.microSteps n).withInputs l := by
  induction n generalizing s with
  | zero => rfl
  | succ n ih => rw [State.microSteps, microStep_withInputs, ih, State.microSteps]

/-! ### Schedules -/

/-- A step that takes a quiet input is a micro-step, or one operation on the decoder. -/
theorem step_of_quiet {s : State} {x : Input} {rest : List Input} (hin : s.env.inputs = x :: rest)
    (hx : x.isQuiet = true) :
    (x = .tick ∧ step s = .next (s.withInputs rest).microStep)
      ∨ x ≠ .tick ∧ ∃ i, i.onDecoder = true ∧ x.decoderOps = [i]
          ∧ step s = .next ((s.withInputs rest).afterDecoderOp i) := by
  have hop (evt : BitVec 2) (drn : BitVec 1) (i : Instr) (hports : x = .ports evt drn) (hdue : dueOps evt drn = [i])
      (hi : i.onDecoder = true) :
      x ≠ .tick ∧ ∃ i, i.onDecoder = true ∧ x.decoderOps = [i]
        ∧ step s = .next ((s.withInputs rest).afterDecoderOp i) := by
    subst hports
    exact ⟨nofun, i, hi, hdue, (step_of_ports_singleton hin hdue).trans (exec_of_onDecoder hi _)⟩
  simp only [Input.isQuiet, Bool.or_eq_true, beq_iff_eq] at hx
  rcases hx with ((rfl | hx) | hx) | hx
  · exact .inl ⟨rfl, step_of_tick hin⟩
  · exact .inr (hop _ _ .edgeA hx rfl rfl)
  · exact .inr (hop _ _ .edgeB hx rfl rfl)
  · exact .inr (hop _ _ .drain hx rfl rfl)

/-- The run of a quiet schedule: its micro-steps, and then its operations on the decoder. -/
theorem runSteps_quiet {l rest : List Input} {s : State} (hin : s.env.inputs = l ++ rest)
    (hl : ∀ x ∈ l, x.isQuiet = true) :
    runSteps l.length s
      = .next (((l.flatMap Input.decoderOps).foldl State.afterDecoderOp (s.microSteps (l.count .tick))).withInputs
          rest) := by
  induction l generalizing s with
  | nil => rw [← List.nil_append rest, ← hin]; rfl
  | cons x l ih =>
    obtain ⟨hx, hquiet⟩ := List.forall_mem_cons.1 hl
    have hnext : s.env.inputs = x :: (l ++ rest) := hin
    obtain ⟨rfl, hstep⟩ | ⟨hne, i, -, hops, hstep⟩ := step_of_quiet hnext hx
    · have hin' : (s.microStep.withInputs (l ++ rest)).env.inputs = l ++ rest := rfl
      rw [microStep_withInputs] at hstep
      rw [List.length_cons, runSteps_succ hstep, ih hin' hquiet, List.count_cons_self, microSteps_withInputs,
        foldl_afterDecoderOp_withInputs]
      rfl
    · have hin' : ((s.afterDecoderOp i).withInputs (l ++ rest)).env.inputs = l ++ rest := rfl
      rw [afterDecoderOp_withInputs] at hstep
      rw [List.length_cons, runSteps_succ hstep, ih hin' hquiet, List.count_cons_of_ne hne, List.flatMap_cons, hops,
        List.singleton_append, List.foldl_cons, microSteps_withInputs, microSteps_afterDecoderOp,
        foldl_afterDecoderOp_withInputs]
      rfl

theorem onDecoder_of_quiet {x : Input} (hx : x.isQuiet = true) : ∀ i ∈ x.decoderOps, i.onDecoder = true := by
  cases x with
  | tick => exact nofun
  | command w => exact nofun
  | ports evt drn => exact onDecoder_of_mem_dueOps evt drn
  | host k => exact nofun

/-- The decoder's operations leave the transport's part of the state as it was. -/
theorem foldl_afterDecoderOp_frame (l : List Instr) (s : State) :
    (l.foldl State.afterDecoderOp s).rt = s.rt ∧ (l.foldl State.afterDecoderOp s).motion = s.motion
      ∧ (l.foldl State.afterDecoderOp s).env = s.env
      ∧ (l.foldl State.afterDecoderOp s).obs.trace = s.obs.trace
      ∧ (l.foldl State.afterDecoderOp s).obs.rdata = s.obs.rdata := by
  induction l generalizing s with
  | nil => exact ⟨rfl, rfl, rfl, rfl, rfl⟩
  | cons i l ih => simpa using ih (s.afterDecoderOp i)

theorem foldl_afterDecoderOp_microSteps (l : List Instr) (s : State) (n : Nat) :
    l.foldl State.afterDecoderOp (s.microSteps n) = (l.foldl State.afterDecoderOp s).microSteps n :=
  List.foldl_hom (·.microSteps n) fun s i => (microSteps_afterDecoderOp s i n).symm

/-- Any number of micro-steps leaves the other units as they were. -/
theorem microSteps_frame (s : State) (n : Nat) :
    (s.microSteps n).qd = s.qd ∧ (s.microSteps n).motion = s.motion ∧ (s.microSteps n).obs.scroll = s.obs.scroll
      ∧ (s.microSteps n).obs.motion = s.obs.motion ∧ (s.microSteps n).env.inputs = s.env.inputs := by
  induction n with
  | zero => exact ⟨rfl, rfl, rfl, rfl, rfl⟩
  | succ n ih =>
    obtain ⟨hqd, hmotion, -, -, -, hin, -, -, hscroll, hdelivered⟩ := microStep_frame (s.microSteps n)
    rw [microSteps_succ, hqd, hmotion, hin, hscroll, hdelivered]
    exact ih

/-- Settles O53: the decoder's operations leave what the micro-steps write, and the other way round. -/
theorem interleavingIsTheProductOfTheUnits : Obligations.InterleavingIsTheProductOfTheUnits := by
  intro l s rest hin hl
  have hon : ∀ i ∈ l.flatMap Input.decoderOps, i.onDecoder = true := by
    intro i hi
    obtain ⟨x, hx, hix⟩ := List.mem_flatMap.1 hi
    exact onDecoder_of_quiet (hl x hx) i hix
  refine ⟨_, _, runSteps_quiet hin hl, execAll_of_onDecoder hon s, ?_⟩
  generalize l.flatMap Input.decoderOps = ops, l.count .tick = n
  obtain ⟨hrt, hmotion, henv, htrace, hrdata⟩ := foldl_afterDecoderOp_frame ops (s.microSteps n)
  obtain ⟨-, hmotion', -⟩ := microSteps_frame s n
  obtain ⟨hqd, -, hscroll, -⟩ := microSteps_frame (ops.foldl State.afterDecoderOp s) n
  rw [← foldl_afterDecoderOp_microSteps] at hqd hscroll
  exact ⟨hrt, htrace, hrdata, by rw [State.withInputs_env, henv], hqd, hscroll, hmotion.trans hmotion', rfl⟩

end Sys2Proof.Machine
end

section
/-! PROOFS. SYNC, READ and WRITE performed to their end, slot by slot, and their pin traces (40_register_transport.md
R130, R140, R150, R156; 30_encoding.md R91, R93, R94): settles O14, O15, O20, O21, O24, O25, O18, O31, O32 and O33. -/

namespace Sys2Proof.Machine

/-! ### Acceptance -/

section
variable {s : State} (h : s.rt.seq = .idle) (addr wdata : Byte)
include h

theorem exec_sync_of_idle : exec (.sync addr wdata) s = .next (s.latch opSync addr wdata (.sync 0) s.rt.rdataValid) :=
  congrArg Host.Outcome.next (present_of_idle h ..)

theorem exec_read_of_idle : exec (.read addr wdata) s = .next (s.latch opRead addr wdata (.read 0) false) :=
  congrArg Host.Outcome.next (present_of_idle h ..)

theorem exec_write_of_idle :
    exec (.write addr wdata) s = .next (s.latch opWrite addr wdata (.write 0) s.rt.rdataValid) :=
  congrArg Host.Outcome.next (present_of_idle h ..)

end

/-! ### The opening -/

theorem foldl_perform_opening (s : State) :
    opening.foldl State.perform s = { s with
      rt := { s.rt with ncs := false, sclk := false, sdioOe := true }
      obs := { s.obs with trace := s.obs.trace ++ [.ncs false, .sclk false, .sdioOe true] } } := by
  simp [opening, State.perform, State.setNcs, State.setSclk, State.setSdioOe, State.log]

/-! ### Driven slots -/

/-- A slot that drives the bit `v`, performed: SCLK ends high and the bit stays on SDIO_OUT (30_encoding.md R94). -/
def State.drive (s : State) (v : Level) : State :=
  { s with
    rt := { s.rt with sclk := true, sdioOut := v }
    obs := { s.obs with trace := s.obs.trace ++ drivenSlot v } }

theorem foldl_perform_addressSlot (s : State) (i : Fin 8) :
    (addressSlot i).foldl State.perform s = s.drive (bitOf s.rt.addr i) := by
  simp [addressSlot, State.perform, State.setSclk, State.setSdioOut, State.log, State.drive, drivenSlot]

theorem foldl_perform_writeSlot_driveAddr (s : State) (i : Fin 8) :
    (writeSlot (.driveAddr i)).foldl State.perform s = s.drive (bitOf s.rt.addr i) := by
  simp [writeSlot, State.perform, State.setSclk, State.setSdioOut, State.log, State.drive, drivenSlot]

theorem foldl_perform_writeSlot_driveData (s : State) (i : Fin 8) :
    (writeSlot (.driveData i)).foldl State.perform s = s.drive (bitOf s.rt.wdata i) := by
  simp [writeSlot, State.perform, State.setSclk, State.setSdioOut, State.log, State.drive, drivenSlot]

/-- A frame of slots that drive the bits of a latched byte drives its bits, most-significant first. -/
theorem foldl_perform_frame {slot : Fin 8 → List MicroStep} {latched : Transport → Byte}
    (hslot : ∀ s i, (slot i).foldl State.perform s = s.drive (bitOf (latched s.rt) i))
    (hlatched : ∀ (s : State) v, latched (s.drive v).rt = latched s.rt) (s : State) :
    (msbFirst.flatMap slot).foldl State.perform s = (frameBits (latched s.rt)).foldl State.drive s := by
  rw [frameBits]
  induction msbFirst generalizing s with
  | nil => rfl
  | cons i is ih =>
    rw [List.flatMap_cons, List.foldl_append, hslot, ih, hlatched, List.map_cons, List.foldl_cons]

/-- Driven bits leave the last one on SDIO_OUT. -/
theorem foldl_drive_concat (bits : List Level) (v : Level) (s : State) :
    (bits ++ [v]).foldl State.drive s = { s with
      rt := { s.rt with sclk := true, sdioOut := v }
      obs := { s.obs with trace := s.obs.trace ++ (bits ++ [v]).flatMap drivenSlot } } := by
  induction bits generalizing s with
  | nil => simp [State.drive]
  | cons b bits ih => rw [List.cons_append, List.foldl_cons, ih]; simp [State.drive]

theorem frameBits_eq_concat (b : Byte) :
    frameBits b = [b.getLsbD 7, b.getLsbD 6, b.getLsbD 5, b.getLsbD 4, b.getLsbD 3, b.getLsbD 2, b.getLsbD 1]
      ++ [b.getLsbD 0] := rfl

theorem foldl_drive_frameBits (b : Byte) (s : State) :
    (frameBits b).foldl State.drive s = { s with
      rt := { s.rt with sclk := true, sdioOut := b.getLsbD 0 }
      obs := { s.obs with trace := s.obs.trace ++ (frameBits b).flatMap drivenSlot } } := by
  rw [frameBits_eq_concat]
  exact foldl_drive_concat _ _ s

/-! ### Response slots -/

/-- The pin trace of a slot that samples the level `v` (30_encoding.md R94), its wait removed. -/
def sampledSlot (v : Level) : List PinEvent := [.sclk false, .sample v, .sclk true]

theorem foldl_perform_responseSlot {s : State} (hoe : s.rt.sdioOe = false) (i : Fin 8) :
    (responseSlot i).foldl State.perform s = { s with
      rt := { s.rt with sclk := true, sr := shiftBit s.rt.sr s.env.level }
      env := s.env.taken
      obs := { s.obs with trace := s.obs.trace ++ sampledSlot s.env.level } } := by
  change (s.setSclk false).sampleShift.setSclk true = _
  rw [sampleShift_of_input (s := s.setSclk false) hoe]
  simp [State.setSclk, State.log, sampledSlot]

/-- Response slots shift in the levels the environment supplies, in their order. -/
theorem foldl_perform_responseSlots (is : List (Fin 8)) {s : State} (hoe : s.rt.sdioOe = false)
    (hclk : s.rt.sclk = true) :
    (is.flatMap responseSlot).foldl State.perform s = { s with
      rt := { s.rt with sclk := true, sr := (s.env.draw is.length).1.foldl shiftBit s.rt.sr }
      env := (s.env.draw is.length).2
      obs := { s.obs with trace := s.obs.trace ++ (s.env.draw is.length).1.flatMap sampledSlot } } := by
  induction is generalizing s with
  | nil => simp [Environment.draw, ← hclk]
  | cons i is ih =>
    rw [List.flatMap_cons, List.foldl_append, foldl_perform_responseSlot hoe]
    refine (@ih _ ?_ ?_).trans ?_
    · exact hoe
    · rfl
    · simp [Environment.draw]

/-! ### Pin traces -/

theorem length_draw (n : Nat) (e : Environment) : (e.draw n).1.length = n := by
  induction n generalizing e with
  | zero => rfl
  | succ n ih => rw [Environment.draw, List.length_cons, ih]

theorem pinTrace_responseSlots (addr wdata : Byte) {is : List (Fin 8)} {bits : List Level}
    (h : bits.length = is.length) :
    pinTrace addr wdata (is.flatMap responseSlot) bits = bits.flatMap sampledSlot := by
  induction is generalizing bits with
  | nil => rw [List.length_eq_zero_iff.1 h]; rfl
  | cons i is ih =>
    match bits, h with
    | v :: bits, h => simp [responseSlot, pinTrace, sampledSlot, ih (Nat.succ.inj h)]

/-- What READ shows before the turnaround and after chip-select has gone low. -/
def readAddressTrace (addr : Byte) : List PinEvent :=
  [.sclk false, .sdioOe true] ++ (frameBits addr).flatMap drivenSlot

theorem pinTrace_readSteps (addr wdata : Byte) {bits : List Level} (h : bits.length = 8) :
    pinTrace addr wdata readSteps bits
      = .ncs false :: readAddressTrace addr ++ .sdioOe false :: bits.flatMap sampledSlot ++ [.ncs true] := by
  have hbefore : pinTrace addr wdata (opening ++ msbFirst.flatMap addressSlot ++ [MicroStep.turnaround]) bits
      = .ncs false :: readAddressTrace addr ++ [.sdioOe false] := rfl
  have hnone : (opening ++ msbFirst.flatMap addressSlot ++ [MicroStep.turnaround]).count MicroStep.sampleShift = 0 := by
    decide
  have hresponse := pinTrace_responseSlots addr wdata (is := msbFirst) h
  have hclose (b : List Level) : pinTrace addr wdata [.wait .idle, .releaseDeliver] b = [.ncs true] := rfl
  rw [readSteps, pinTrace_append, pinTrace_append, hbefore, hnone, List.drop_zero, hresponse, hclose]
  simp

/-! ### READ -/

/-- The state a READ leaves (40_register_transport.md R130, R133). -/
def State.afterRead (s : State) (addr wdata : Byte) : State :=
  { s with
    rt :=
      { ncs := true, sclk := true, sdioOut := addr.getLsbD 0, sdioOe := false, seq := .idle
        op := opRead, addr := addr, wdata := wdata
        sr := byteOfBits (s.env.draw 8).1, rdataValid := true }
    env := (s.env.draw 8).2
    obs :=
      { s.obs with
        trace := s.obs.trace ++ pinTrace addr wdata readSteps (s.env.draw 8).1
        rdata := s.obs.rdata ++ [s8 (byteOfBits (s.env.draw 8).1)] } }

theorem foldl_perform_turnaround (s : State) :
    [MicroStep.turnaround].foldl State.perform s = { s with
      rt := { s.rt with sdioOe := false, sr := 0 }
      obs := { s.obs with trace := s.obs.trace ++ [.sdioOe false] } } := rfl

theorem foldl_perform_readClosing (s : State) :
    [MicroStep.wait .idle, .releaseDeliver].foldl State.perform s = { s with
      rt := { s.rt with ncs := true, rdataValid := true }
      obs := { s.obs with trace := s.obs.trace ++ [.ncs true], rdata := s.obs.rdata ++ [s8 s.rt.sr] } } := rfl

theorem microSteps_read (s : State) (addr wdata : Byte) :
    (s.latch opRead addr wdata (.read 0) false).microSteps 78 = s.afterRead addr wdata := by
  have hframe := foldl_perform_frame (latched := Transport.addr) foldl_perform_addressSlot fun _ _ => rfl
  rw [microSteps_remaining (s := s.latch opRead addr wdata (.read 0) false) (n := 78) rfl]
  change (readSteps.foldl State.perform _).setSeq .idle = _
  rw [readSteps, List.foldl_append, List.foldl_append, List.foldl_append, List.foldl_append, foldl_perform_opening,
    hframe, foldl_drive_frameBits, foldl_perform_turnaround, foldl_perform_responseSlots _ rfl rfl,
    foldl_perform_readClosing, State.afterRead, pinTrace_readSteps _ _ (length_draw 8 s.env)]
  simp [State.setSeq, State.latch, readAddressTrace, byteOfBits, msbFirst]

/-- Settles O14: acceptance by `exec_read_of_idle`, the rest by `microSteps_read`. -/
theorem readRunsToItsEndState : Obligations.ReadRunsToItsEndState :=
  fun s addr wdata hidle => ⟨_, exec_read_of_idle hidle addr wdata, rfl, microSteps_read s addr wdata⟩

/-! ### WRITE -/

/-- The state a WRITE leaves (40_register_transport.md R140, R141). -/
def State.afterWrite (s : State) (addr wdata : Byte) : State :=
  { s with
    rt :=
      { ncs := true, sclk := true, sdioOut := wdata.getLsbD 0, sdioOe := true, seq := .idle
        op := opWrite, addr := addr, wdata := wdata
        sr := s.rt.sr, rdataValid := s.rt.rdataValid }
    obs := { s.obs with trace := s.obs.trace ++ pinTrace addr wdata writeSteps [] } }

theorem microSteps_write (s : State) (addr wdata : Byte) :
    (s.latch opWrite addr wdata (.write 0) s.rt.rdataValid).microSteps 85 = s.afterWrite addr wdata := by
  have haddr := foldl_perform_frame (latched := Transport.addr) foldl_perform_writeSlot_driveAddr fun _ _ => rfl
  have hdata := foldl_perform_frame (latched := Transport.wdata) foldl_perform_writeSlot_driveData fun _ _ => rfl
  rw [microSteps_remaining (s := s.latch opWrite addr wdata (.write 0) s.rt.rdataValid) (n := 85) rfl]
  change (writeSteps.foldl State.perform _).setSeq .idle = _
  rw [writeSteps, List.foldl_append, List.foldl_append, List.foldl_append, foldl_perform_opening,
    haddr, foldl_drive_frameBits, hdata, foldl_drive_frameBits, State.afterWrite, pinTrace_writeSteps]
  simp [State.perform, State.setNcs, State.setSeq, State.latch, State.log, writeSlots]

/-- Settles O21: as O14, with `microSteps_write`. -/
theorem writeRunsToItsEndState : Obligations.WriteRunsToItsEndState :=
  fun s addr wdata hidle => ⟨_, exec_write_of_idle hidle addr wdata, rfl, microSteps_write s addr wdata⟩

/-! ### SYNC -/

/-- The state a SYNC leaves (40_register_transport.md R150). -/
def State.afterSync (s : State) (addr wdata : Byte) : State :=
  { s with
    rt := { s.rt with ncs := true, seq := .idle, op := opSync, addr := addr, wdata := wdata }
    obs := { s.obs with trace := s.obs.trace ++ [.ncs false, .ncs true] } }

theorem microSteps_sync (s : State) (addr wdata : Byte) :
    (s.latch opSync addr wdata (.sync 0) s.rt.rdataValid).microSteps 3 = s.afterSync addr wdata := by
  rw [microSteps_remaining (s := s.latch opSync addr wdata (.sync 0) s.rt.rdataValid) (n := 3) rfl]
  change (syncSteps.foldl State.perform _).setSeq .idle = _
  simp [syncSteps, State.perform, State.setNcs, State.setSeq, State.latch, State.log, State.afterSync]

/-- Settles O24: BUSY holds while micro-steps are left, and the rest is `microSteps_sync`. -/
theorem syncPulsesChipSelectOnly : Obligations.SyncPulsesChipSelectOnly := by
  refine ⟨rfl, fun s addr wdata hidle => ⟨_, decodeCmd_sync addr wdata, exec_sync_of_idle hidle addr wdata, rfl, rfl,
    ?_, ?_, microSteps_sync s addr wdata⟩⟩
  · exact (busy_microSteps_iff _ 1).2 (show 1 < (SeqPos.sync 0).remaining by decide)
  · exact (busy_microSteps_iff _ 2).2 (show 2 < (SeqPos.sync 0).remaining by decide)

/-- Settles O25: the second SYNC starts from an idle state and writes what the first one wrote. -/
theorem syncTwiceLeavesWhatOneLeaves : Obligations.SyncTwiceLeavesWhatOneLeaves := by
  intro s addr wdata hidle
  refine ⟨s.latch opSync addr wdata (.sync 0) s.rt.rdataValid,
    (s.afterSync addr wdata).latch opSync addr wdata (.sync 0) s.rt.rdataValid, exec_sync_of_idle hidle addr wdata, ?_⟩
  have hsecond := microSteps_sync (s.afterSync addr wdata) addr wdata
  rw [microSteps_sync]
  refine ⟨exec_sync_of_idle rfl addr wdata, ?_⟩
  rw [show (s.afterSync addr wdata).rt.rdataValid = s.rt.rdataValid from rfl] at hsecond
  rw [hsecond]
  exact ⟨rfl, rfl, rfl, rfl⟩

/-! ### A READ on the wire -/

theorem runSteps_of_no_inputs {s : State} (h : s.env.inputs = []) (n : Nat) :
    runSteps n s = .next (s.microSteps n) := by
  induction n generalizing s with
  | zero => rfl
  | succ n ih =>
    obtain ⟨-, -, -, -, -, hin, -⟩ := microStep_frame s
    rw [runSteps_succ (step_of_nil h), ih (hin.trans h), State.microSteps]

/-- Listed levels are supplied in their order. -/
theorem draw_of_samples {e : Environment} {bits rest : List Level} (h : e.samples = bits ++ rest) :
    e.draw bits.length = (bits, { e with samples := rest }) := by
  induction bits generalizing e with
  | nil => rw [List.nil_append] at h; rw [← h]; rfl
  | cons b bits ih =>
    have hlevel : e.level = b := by rw [Environment.level, h]; rfl
    have htaken : e.taken = { e with samples := bits ++ rest } := by rw [Environment.taken, h]; rfl
    rw [List.length_cons, Environment.draw, hlevel, htaken, ih rfl]

/-- The byte sent most-significant bit first is the byte shifted in (20_memory.md R69). -/
theorem byteOfBits_frameBits (b : Byte) : byteOfBits (frameBits b) = b := by
  refine BitVec.eq_of_getLsbD_eq fun i hi => ?_
  rw [getLsbD_byteOfBits _ hi]
  match i, hi with
  | 0, _ | 1, _ | 2, _ | 3, _ | 4, _ | 5, _ | 6, _ | 7, _ => rfl

/-- Settles O15: the machine's run is the micro-steps alone, and the eight levels drawn are the byte's bits. -/
theorem readDeliversTheByteOnTheWire : Obligations.ReadDeliversTheByteOnTheWire := by
  intro s addr wdata b rest hidle hin hsamples
  have hdraw : s.env.draw 8 = (frameBits b, { s.env with samples := rest }) := draw_of_samples hsamples
  have hrun := runSteps_of_no_inputs (s := s.latch opRead addr wdata (.read 0) false) hin 78
  rw [microSteps_read] at hrun
  refine ⟨_, s.afterRead addr wdata, exec_read_of_idle hidle addr wdata, hrun, rfl, ?_, ?_, ?_, ?_, rfl, rfl⟩
  · rw [State.afterRead, hdraw]; exact byteOfBits_frameBits b
  · rw [State.afterRead, hdraw, byteOfBits_frameBits]; rfl
  · rw [State.afterRead, hdraw, byteOfBits_frameBits]
  · rw [State.afterRead, hdraw]

/-! ### READ's wire format -/

theorem presentedBits_sampledSlots {p : Pins} (hoe : p.sdioOe = false) (bits : List Level) :
    presentedBits p (bits.flatMap sampledSlot) = [] := by
  induction bits generalizing p with
  | nil => rfl
  | cons v bits ih =>
    have rest := @ih { p with sclk := true } hoe
    simpa [sampledSlot, presentedBits, Pins.presents, Pins.after, hoe] using rest

/-- With chip-select low and the data line in input mode each response slot asks for one bit, from SCLK high. -/
theorem requestedBits_sampledSlots {p : Pins} (hncs : p.ncs = false) (hoe : p.sdioOe = false) (hclk : p.sclk = true)
    (bits : List Level) : requestedBits p (bits.flatMap sampledSlot) = bits.length := by
  induction bits generalizing p with
  | nil => rfl
  | cons v bits ih =>
    have rest := @ih { p with sclk := true } hncs hoe rfl
    simp [sampledSlot, requestedBits, Pins.requests, Pins.after, hncs, hoe, hclk] at rest ⊢
    omega

theorem presentedBits_readAddressTrace {p : Pins} (hncs : p.ncs = false) (addr : Byte) :
    presentedBits p (readAddressTrace addr) = frameBits addr := by
  have slots := @presentedBits_flatMap_drivenSlot { p with sclk := false, sdioOe := true } hncs rfl (frameBits addr)
  simpa [readAddressTrace, presentedBits, Pins.presents, Pins.after] using slots

/-- Settles O20: the trace in its two halves, each read as the sensor reads it. -/
theorem readShowsTheAddressThenListens : Obligations.ReadShowsTheAddressThenListens := by
  intro p addr wdata bits hlen
  obtain ⟨-, -, -, -, hslots, -⟩ := readMicroStepTable
  exact ⟨readAddressTrace addr, bits.flatMap sampledSlot, pinTrace_readSteps addr wdata hlen,
    presentedBits_readAddressTrace rfl addr, presentedBits_sampledSlots rfl bits,
    (requestedBits_sampledSlots rfl rfl rfl bits).trans hlen, rfl, rfl, hslots⟩

/-! ### Lengths and durations -/

theorem length_flatMap_of_length_eq {α β : Type} {f : α → List β} {n : Nat} (h : ∀ a, (f a).length = n) (l : List α) :
    (l.flatMap f).length = l.length * n := by
  induction l with
  | nil => rw [List.flatMap_nil, List.length_nil, List.length_nil, Nat.zero_mul]
  | cons a l ih => rw [List.flatMap_cons, List.length_append, h, ih, List.length_cons, Nat.succ_mul, Nat.add_comm]

theorem length_frameBits (b : Byte) : (frameBits b).length = 8 := rfl

/-- Settles O31: a trace by the three entries of each slot. -/
theorem traceLengths : Obligations.TraceLengths := by
  have hdriven := length_flatMap_of_length_eq (f := drivenSlot) (n := 3) fun _ => rfl
  have hsampled := length_flatMap_of_length_eq (f := sampledSlot) (n := 3) fun _ => rfl
  refine ⟨by decide, by decide, fun addr wdata bits hlen => ⟨?_, ?_, rfl⟩⟩
  · rw [pinTrace_readSteps _ _ hlen]
    simp only [readAddressTrace, List.length_cons, List.length_append, List.length_nil, hdriven, hsampled, hlen,
      length_frameBits]
  · rw [pinTrace_writeSteps]
    simp only [writeSlots, List.length_cons, List.length_append, List.length_nil, hdriven, length_frameBits]

theorem leastDuration_append (l l' : List MicroStep) :
    leastDuration (l ++ l') = leastDuration l + leastDuration l' := by
  rw [leastDuration, List.map_append, List.sum_append, leastDuration, leastDuration]

theorem leastDuration_flatMap {slot : Fin 8 → List MicroStep} {d : Nat} (h : ∀ i, leastDuration (slot i) = d)
    (is : List (Fin 8)) : leastDuration (is.flatMap slot) = is.length * d := by
  induction is with
  | nil => rw [List.length_nil, Nat.zero_mul]; rfl
  | cons i is ih => rw [List.flatMap_cons, leastDuration_append, h, ih, List.length_cons, Nat.succ_mul, Nat.add_comm]

theorem leastDuration_addressSlot (i : Fin 8) :
    leastDuration (addressSlot i) = Config.duration .aSetup + Config.duration .aHold := by
  simp [leastDuration, addressSlot]

theorem leastDuration_responseSlot (i : Fin 8) : leastDuration (responseSlot i) = Config.duration .rSetup := by
  simp [leastDuration, responseSlot]

theorem leastDuration_writeSlot_driveAddr (i : Fin 8) :
    leastDuration (writeSlot (.driveAddr i)) = Config.duration .wPre + Config.duration .wPost := by
  simp [leastDuration, writeSlot]

theorem leastDuration_writeSlot_driveData (i : Fin 8) :
    leastDuration (writeSlot (.driveData i)) = Config.duration .wPre + Config.duration .wPost := by
  simp [leastDuration, writeSlot]

/-- Settles O32: the waits of each slot, times its slots. -/
theorem leastDurations : Obligations.LeastDurations := by
  have hopen : leastDuration opening = 0 := rfl
  have hturn : leastDuration [.turnaround] = 0 := rfl
  have hlen : msbFirst.length = 8 := rfl
  have hread : leastDuration [.wait .idle, .releaseDeliver] = Config.duration .idle := rfl
  have hwrite : leastDuration [.wait .idle, .release] = Config.duration .idle := rfl
  refine ⟨?_, ?_, ?_⟩
  · simp only [readSteps, leastDuration_append, leastDuration_flatMap leastDuration_addressSlot,
      leastDuration_flatMap leastDuration_responseSlot, hopen, hturn, hread, hlen]
    omega
  · simp only [writeSteps, leastDuration_append, leastDuration_flatMap leastDuration_writeSlot_driveAddr,
      leastDuration_flatMap leastDuration_writeSlot_driveData, hopen, hwrite, hlen]
    omega
  · simp [leastDuration, syncSteps]

/-! ### The signed result, and the level of the data line -/

/-- Settles O18: the two formulas by O19's lemmas, and the closing micro-step is row 77 of READ. -/
theorem readResultIsTheSignedByte : Obligations.ReadResultIsTheSignedByte := by
  refine ⟨fun b => ⟨rfl, s8_eq_of_highBit b, neg_128_le_s8 b, s8_le_127 b⟩, rfl, rfl, rfl, rfl, rfl, rfl,
    fun s hseq => ?_⟩
  have hm : s.rt.seq.microStep? = some .releaseDeliver := by rw [hseq]; rfl
  rw [microStep_of_some hm]
  exact ⟨rfl, rfl⟩

/-- Settles O33: by mode, and in input mode by whether a level is listed. -/
theorem dataLineLevel : Obligations.DataLineLevel := by
  intro s
  refine ⟨fun hoe => if_pos hoe, fun hoe => ?_⟩
  have hline : s.sdioLine = s.env.level := by rw [State.sdioLine, hoe]; rfl
  refine ⟨hline, fun b rest hs => ?_, fun hs => ?_⟩ <;> rw [hline, Environment.level, hs]

end Sys2Proof.Machine
end

section
/-! PROOFS. The companion steps of the main loop, and POLL and EMIT as the machine runs them (42_host_operations.md
R194, R196, R197, R201): settles O48, O49, O50, O51 and O55. -/

namespace Sys2Proof.Machine

/-! ### Arithmetic of the accumulators -/

theorem u8_sub (m n : Int) : u8 (m - n) = u8 m - u8 n := by
  rw [Int.sub_eq_add_neg, u8_add, BitVec.sub_eq_add_neg, u8, u8, u8, BitVec.ofInt_neg]

theorem addMy_eq (s : State) (r : Byte) :
    s.addMy (s8 r) = { s with motion := { s.motion with my := s.motion.my + r } } := by
  rw [State.addMy, stepCounter_eq, u8_s8]

theorem subMx_eq (s : State) (r : Byte) :
    s.subMx (s8 r) = { s with motion := { s.motion with mx := s.motion.mx - r } } := by
  rw [State.subMx, stepCounter, ← Int.sub_eq_add_neg, u8_sub, u8_s8, u8_s8]

/-! ### The companion steps -/

section
variable {s : State} (h : s.busy = false)
include h

theorem execHostStep_addY_of_valid (hv : s.rt.rdataValid = true) :
    execHostStep .addY s = .next (s.addMy (s8 s.rt.sr)) :=
  (execHostStep_of_idle ((busy_eq_false_iff s).1 h) .addY).trans (congrArg _ (if_pos hv))

theorem execHostStep_subX_of_valid (hv : s.rt.rdataValid = true) :
    execHostStep .subX s = .next (s.subMx (s8 s.rt.sr)) :=
  (execHostStep_of_idle ((busy_eq_false_iff s).1 h) .subX).trans (congrArg _ (if_pos hv))

theorem execHostStep_addY_of_not_valid (hv : s.rt.rdataValid = false) :
    execHostStep .addY s = .next (s.drawUnread.addMy (s8 (Config.unreadRdata s.env.unreadNo))) :=
  (execHostStep_of_idle ((busy_eq_false_iff s).1 h) .addY).trans (congrArg _ (if_neg (by simp [hv])))

theorem execHostStep_subX_of_not_valid (hv : s.rt.rdataValid = false) :
    execHostStep .subX s = .next (s.drawUnread.subMx (s8 (Config.unreadRdata s.env.unreadNo))) :=
  (execHostStep_of_idle ((busy_eq_false_iff s).1 h) .subX).trans (congrArg _ (if_neg (by simp [hv])))

theorem execHostStep_mdrain : execHostStep .mdrain s = .next s.drainMotion :=
  execHostStep_of_idle ((busy_eq_false_iff s).1 h) .mdrain

end

/-- Settles O48: the signed readings are undone by the narrowing, and each accumulation is one counter step. -/
theorem accumulationWrapsLikeEightBitArithmetic : Obligations.AccumulationWrapsLikeEightBitArithmetic := by
  refine ⟨fun c r => ⟨by rw [u8_add, u8_s8, u8_s8], by rw [u8_sub, u8_s8, u8_s8], fun hr => by rw [hr]; rfl⟩,
    fun s hb hv => ⟨?_, ?_⟩⟩
  · rw [execHostStep_addY_of_valid hb hv, addMy_eq]
  · rw [execHostStep_subX_of_valid hb hv, subMx_eq]

/-- Settles O55: as O48, with the free value in RDATA's place. -/
theorem accumulationWithoutAReadTakesAFreeValue : Obligations.AccumulationWithoutAReadTakesAFreeValue := by
  intro s hb hv
  rw [execHostStep_addY_of_not_valid hb hv, execHostStep_subX_of_not_valid hb hv, addMy_eq, subMx_eq]
  exact ⟨rfl, rfl⟩

/-- Settles O50: MDRAIN while idle is one run of `State.drainMotion`. -/
theorem motionDrainDeliversAndClears : Obligations.MotionDrainDeliversAndClears :=
  fun _ hb => execHostStep_mdrain hb

/-! ### Transactions and companion steps as the machine runs them -/

theorem runSteps_ticks (s : State) (n : Nat) (rest : List Input) :
    runSteps n (s.withInputs (List.replicate n .tick ++ rest)) = .next ((s.microSteps n).withInputs rest) := by
  have hops : (List.replicate n Input.tick).flatMap Input.decoderOps = [] :=
    List.flatMap_eq_nil_iff.2 fun x hx => by rw [List.eq_of_mem_replicate hx]; rfl
  have hrun := runSteps_quiet (s := s.withInputs (List.replicate n .tick ++ rest)) (l := List.replicate n .tick)
    (rest := rest) rfl fun x hx => by rw [List.eq_of_mem_replicate hx]; rfl
  rw [hops, List.count_replicate_self, List.length_replicate, List.foldl_nil, microSteps_withInputs] at hrun
  exact hrun

/-- A READ as a transaction: acceptance and its 78 micro-steps. -/
theorem runSteps_read {s : State} (h : s.rt.seq = .idle) (addr wdata : Byte) (rest : List Input) :
    runSteps 79 (s.withInputs (transaction opRead addr wdata readSteps ++ rest))
      = .next ((s.afterRead addr wdata).withInputs rest) := by
  have hticks : transaction opRead addr wdata readSteps ++ rest
      = .command (cmdWord opRead addr wdata) :: (List.replicate 78 .tick ++ rest) := by
    rw [transaction, readSteps_length]; rfl
  have haccept : exec (.read addr wdata) (s.withInputs (List.replicate 78 .tick ++ rest))
      = .next ((s.latch opRead addr wdata (.read 0) false).withInputs (List.replicate 78 .tick ++ rest)) :=
    exec_read_of_idle (s := s.withInputs (List.replicate 78 .tick ++ rest)) h addr wdata
  have hstep : step (s.withInputs (.command (cmdWord opRead addr wdata) :: (List.replicate 78 .tick ++ rest)))
      = exec (.read addr wdata) (s.withInputs (List.replicate 78 .tick ++ rest)) :=
    step_of_command_ok rfl (decodeCmd_read addr wdata)
  rw [hticks, runSteps_succ (hstep.trans haccept) 78, runSteps_ticks, microSteps_read]

theorem runSteps_host {s t : State} {k : HostStep} {rest : List Input}
    (h : execHostStep k (s.withInputs rest) = .next t) :
    runSteps 1 (s.withInputs (.host k :: rest)) = .next t :=
  (runSteps_succ ((step_of_host (s := s.withInputs (.host k :: rest)) rfl).trans h) 0).trans (runSteps_zero t)

/-- A READ as a transaction, and then the companion step on its result. -/
theorem runSteps_read_host {s t : State} (h : s.rt.seq = .idle) {addr wdata : Byte} {k : HostStep} {rest : List Input}
    (hk : execHostStep k ((s.afterRead addr wdata).withInputs rest) = .next t) :
    runSteps 80 (s.withInputs (transaction opRead addr wdata readSteps ++ .host k :: rest)) = .next t :=
  (runSteps_add (runSteps_read h addr wdata (.host k :: rest)) 1).trans (runSteps_host hk)

/-- The state after the first half of POLL: delta-Y read and added to MY (42_host_operations.md R194). -/
def State.afterPollY (s : State) : State :=
  (s.afterRead Config.addrDeltaY 0).addMy (s8 (byteOfBits (s.env.draw 8).1))

/-- The state after the second half: delta-X read and subtracted from MX. -/
def State.afterPollX (s : State) : State :=
  (s.afterRead Config.addrDeltaX 0).subMx (s8 (byteOfBits (s.env.draw 8).1))

theorem runSteps_poll {s : State} (h : s.rt.seq = .idle) (rest : List Input) :
    runSteps 160 (s.withInputs (pollInputs ++ rest)) = .next (s.afterPollY.afterPollX.withInputs rest) := by
  have hinputs : pollInputs ++ rest = transaction opRead Config.addrDeltaY 0 readSteps ++ .host .addY ::
      (transaction opRead Config.addrDeltaX 0 readSteps ++ .host .subX :: rest) := by
    simp only [pollInputs, List.append_assoc, List.cons_append, List.nil_append]
  have hy (r : List Input) :
      execHostStep .addY ((s.afterRead Config.addrDeltaY 0).withInputs r) = .next (s.afterPollY.withInputs r) :=
    execHostStep_addY_of_valid rfl rfl
  have hx (t : State) : execHostStep .subX ((t.afterRead Config.addrDeltaX 0).withInputs rest)
      = .next (t.afterPollX.withInputs rest) :=
    execHostStep_subX_of_valid rfl rfl
  have hsecond : runSteps 80 (s.afterPollY.withInputs
      (transaction opRead Config.addrDeltaX 0 readSteps ++ .host .subX :: rest))
        = .next (s.afterPollY.afterPollX.withInputs rest) := runSteps_read_host rfl (hx _)
  rw [hinputs]
  exact (runSteps_add (runSteps_read_host h (hy _)) 80).trans hsecond

theorem withInputs_self {s : State} {l : List Input} (h : s.env.inputs = l) : s.withInputs l = s := by
  rw [← h]; rfl

/-- Settles O49: two transactions and two companion steps, one after another. -/
theorem pollAccumulatesYThenX : Obligations.PollAccumulatesYThenX := by
  intro s rest hidle hin
  have hrun := runSteps_poll hidle rest
  rw [withInputs_self hin] at hrun
  refine ⟨_, hrun, rfl, ?_, ?_, rfl, rfl, rfl, rfl, rfl, rfl⟩
  · exact congrArg u8 (Int.sub_eq_add_neg ..).symm
  · exact List.append_assoc ..

/-- Settles O51: MDRAIN, and then DRAIN by its strobe. -/
theorem emitDeliversAllFourAccumulators : Obligations.EmitDeliversAllFourAccumulators := by
  intro s rest hidle hin
  have hmdrain : step s = .next (s.withInputs (.ports 0 1 :: rest)).drainMotion :=
    (step_of_host hin).trans (execHostStep_mdrain ((busy_eq_false_iff _).2 hidle))
  have hdrain : step (s.withInputs (.ports 0 1 :: rest)).drainMotion
      = .next ((s.withInputs (.ports 0 1 :: rest)).drainMotion.withInputs rest).drainScroll :=
    step_of_ports_singleton (evt := 0) (drn := 1) (i := .drain) rfl rfl
  have hrun := (runSteps_succ hmdrain 1).trans (runSteps_succ hdrain 0)
  exact ⟨_, hrun, rfl, rfl, rfl, rfl, rfl, rfl, rfl, rfl, rfl⟩

end Sys2Proof.Machine
end

section
/-! PROOFS. The transport's invariant, position by position, and the validity of RDATA (10_state.md R22, R29, R31;
40_register_transport.md R130, R140, R150): settles O3, O54, O2 and O1. -/

namespace Sys2Proof.Machine

/-! ### What a micro-step writes -/

/-- The pin latches, and the validity of RDATA, after a micro-step (40_register_transport.md R130, R140, R150). -/
def MicroStep.ncsAfter (v : Level) : MicroStep → Level
  | .select => false
  | .release | .releaseDeliver => true
  | _ => v

@[inherit_doc MicroStep.ncsAfter] def MicroStep.sclkAfter (v : Level) : MicroStep → Level
  | .clockLow => false
  | .clockHigh => true
  | _ => v

@[inherit_doc MicroStep.ncsAfter] def MicroStep.oeAfter (v : Level) : MicroStep → Level
  | .outputMode => true
  | .turnaround => false
  | _ => v

@[inherit_doc MicroStep.ncsAfter] def MicroStep.validAfter (v : Bool) : MicroStep → Bool
  | .releaseDeliver => true
  | _ => v

/-- The micro-steps that write SDIO_OUT, and the bit they write (30_encoding.md R95). -/
def MicroStep.isDrive : MicroStep → Bool
  | .driveAddr _ | .driveData _ => true
  | _ => false

@[inherit_doc MicroStep.isDrive] def MicroStep.drivenBit (addr wdata : Byte) : MicroStep → Level
  | .driveAddr i => bitOf addr i
  | .driveData i => bitOf wdata i
  | _ => false

section
variable (s : State) (m : MicroStep)

theorem perform_ncs : (s.perform m).rt.ncs = m.ncsAfter s.rt.ncs := by cases m <;> rfl
theorem perform_sclk : (s.perform m).rt.sclk = m.sclkAfter s.rt.sclk := by cases m <;> rfl
theorem perform_sdioOe : (s.perform m).rt.sdioOe = m.oeAfter s.rt.sdioOe := by cases m <;> rfl
theorem perform_rdataValid : (s.perform m).rt.rdataValid = m.validAfter s.rt.rdataValid := by cases m <;> rfl
theorem perform_sdioOut : (s.perform m).rt.sdioOut
    = if m.isDrive then m.drivenBit s.rt.addr s.rt.wdata else s.rt.sdioOut := by cases m <;> rfl

end

/-! ### The micro-step at each position -/

/-- A fact about every position and its micro-step, list by list. -/
theorem forall_microStep {P : SeqPos → MicroStep → Prop}
    (hsync : ∀ k : Fin 3, ∀ m ∈ (SeqPos.sync k).microStep?, P (.sync k) m)
    (hread : ∀ k : Fin 78, ∀ m ∈ (SeqPos.read k).microStep?, P (.read k) m)
    (hwrite : ∀ k : Fin 85, ∀ m ∈ (SeqPos.write k).microStep?, P (.write k) m)
    {q : SeqPos} {m : MicroStep} (h : q.microStep? = some m) : P q m := by
  cases q with
  | idle => cases h
  | sync k => exact hsync k m h
  | read k => exact hread k m h
  | write k => exact hwrite k m h

/-- The last micro-step that drove SDIO_OUT before a position, if one has. -/
def SeqPos.lastDrive? : SeqPos → Option MicroStep
  | .idle | .sync _ => none
  | .read k => if k.val ≤ 5 then none else (msbFirst.map .driveAddr)[min 7 ((k.val - 6) / 5)]?
  | .write k =>
    if k.val ≤ 5 then none else (msbFirst.map .driveAddr ++ msbFirst.map .driveData)[min 15 ((k.val - 6) / 5)]?

theorem lastDriven?_eq_map (addr wdata : Byte) (q : SeqPos) :
    q.lastDriven? addr wdata = q.lastDrive?.map (MicroStep.drivenBit addr wdata) := by
  have haddr : frameBits addr = (msbFirst.map MicroStep.driveAddr).map (MicroStep.drivenBit addr wdata) := rfl
  have hboth : frameBits addr ++ frameBits wdata
      = (msbFirst.map MicroStep.driveAddr ++ msbFirst.map MicroStep.driveData).map (MicroStep.drivenBit addr wdata) :=
    rfl
  cases q with
  | idle => rfl
  | sync k => rfl
  | read k =>
    rw [SeqPos.lastDriven?, SeqPos.lastDrive?, haddr, List.getElem?_map]
    split <;> rfl
  | write k =>
    rw [SeqPos.lastDriven?, SeqPos.lastDrive?, hboth, List.getElem?_map]
    split <;> rfl

section
variable {q : SeqPos} {m : MicroStep} (h : q.microStep? = some m)
include h

theorem ncsLevel_advance : q.advance.ncsLevel = m.ncsAfter q.ncsLevel := by
  apply forall_microStep (q := q) (m := m) (h := h) <;> decide

theorem sclkLevel_advance : q.advance.sclkLevel = m.sclkAfter q.sclkLevel := by
  apply forall_microStep (q := q) (m := m) (h := h) <;> decide

theorem oeLevel?_advance : q.advance.oeLevel? = none ∨ q.advance.oeLevel? = some (m.oeAfter true)
      ∧ m.oeAfter true = m.oeAfter false ∨ q.advance.oeLevel? = q.oeLevel? ∧ ∀ v, m.oeAfter v = v := by
  apply forall_microStep (q := q) (m := m) (h := h) <;> decide

theorem lastDrive?_advance : q.advance.lastDrive? = none
      ∨ q.advance.lastDrive? = if m.isDrive then some m else q.lastDrive? := by
  apply forall_microStep (q := q) (m := m) (h := h) <;> decide

theorem opCode?_advance : q.advance.opCode? = none ∨ q.advance.opCode? = q.opCode? := by
  apply forall_microStep (q := q) (m := m) (h := h) <;> decide

/-- The count of response bits starts at the turnaround and rises by one at each sample. -/
theorem bitsShifted?_advance : q.advance.bitsShifted? = none
      ∨ m = .turnaround
      ∨ m = .sampleShift ∧ q.advance.bitsShifted? = q.bitsShifted?.map (· + 1)
      ∨ m ≠ .sampleShift ∧ q.advance.bitsShifted? = q.bitsShifted? := by
  apply forall_microStep (q := q) (m := m) (h := h) <;> decide

/-- RDATA is delivered at the end of a READ and nowhere else. -/
theorem releaseDeliver_position : m = .releaseDeliver → q = .read 77 := by
  apply forall_microStep (q := q) (m := m) (h := h) <;> decide

end

theorem advance_eq_read {q : SeqPos} {k : Fin 78} (h : q.advance = .read k) : ∃ j, q = .read j ∧ k.val = j.val + 1 := by
  cases q with
  | idle => cases h
  | sync j => rw [SeqPos.advance] at h; split at h <;> cases h
  | read j => rw [SeqPos.advance] at h; split at h <;> cases h; exact ⟨j, rfl, rfl⟩
  | write j => rw [SeqPos.advance] at h; split at h <;> cases h

/-! ### The invariant as a conjunction -/

theorem agrees_iff {α : Type} [DecidableEq α] (fixed : Option α) (held : α) :
    agrees fixed held = true ↔ ∀ v, fixed = some v → held = v := by
  cases fixed with
  | none => simp [agrees]
  | some v => simp [agrees]

/-- The invariant's seven clauses (10_state.md R22, R29, R31). -/
theorem consistent_iff (t : Transport) : t.consistent = true ↔
    t.ncs = t.seq.ncsLevel ∧ t.sclk = t.seq.sclkLevel
      ∧ (∀ v, t.seq.oeLevel? = some v → t.sdioOe = v)
      ∧ (∀ m, t.seq.lastDrive? = some m → t.sdioOut = m.drivenBit t.addr t.wdata)
      ∧ (∀ op, t.seq.opCode? = some op → t.op = op)
      ∧ (∀ n, t.seq.bitsShifted? = some n → t.sr.toNat < 2 ^ n)
      ∧ ∀ k, t.seq = .read k → t.rdataValid = false := by
  simp only [Transport.consistent, Bool.and_eq_true, beq_iff_eq, agrees_iff, and_assoc]
  refine and_congr_right' (and_congr_right' (and_congr_right' (and_congr ?drive (and_congr_right'
    (and_congr ?bits ?valid)))))
  case drive =>
    rw [lastDriven?_eq_map]
    cases t.seq.lastDrive? <;> simp
  case bits => cases t.seq.bitsShifted? <;> simp
  case valid =>
    cases t.seq with
    | read k => exact ⟨fun h _ _ => by simpa using h, fun h => by rw [h k rfl]; rfl⟩
    | idle => exact ⟨fun _ => nofun, fun _ => rfl⟩
    | sync k => exact ⟨fun _ => nofun, fun _ => rfl⟩
    | write k => exact ⟨fun _ => nofun, fun _ => rfl⟩

/-! ### Every step keeps the invariant -/

theorem toNat_shiftBit_lt {sr : Byte} {n : Nat} (h : sr.toNat < 2 ^ n) (v : Level) :
    (shiftBit sr v).toNat < 2 ^ (n + 1) := by
  have hbit : ((BitVec.ofBool v).setWidth 8).toNat < 2 := by cases v <;> decide
  have hshift : (sr <<< 1).toNat ≤ sr.toNat * 2 := by
    rw [BitVec.toNat_shiftLeft, Nat.shiftLeft_eq, Nat.pow_one]
    exact Nat.mod_le ..
  have hpos : 0 < 2 ^ n := Nat.two_pow_pos n
  rw [shiftBit, BitVec.toNat_or]
  exact Nat.or_lt_two_pow (by rw [Nat.pow_succ]; omega) (by rw [Nat.pow_succ]; omega)

/-- A micro-step from a position moves each register as the levels of the two positions say. -/
theorem microStep_consistent {s : State} (h : s.rt.consistent = true) : s.microStep.rt.consistent = true := by
  by_cases hidle : s.rt.seq = .idle
  · rw [microStep_of_idle hidle]
    exact h
  obtain ⟨m, hm⟩ := microStep?_isSome hidle
  obtain ⟨hncs, hsclk, hoe, hdrive, hop, hbits, hvalid⟩ := (consistent_iff _).1 h
  rw [microStep_of_some hm, State.setSeq_rt, consistent_iff]
  simp only [perform_ncs, perform_sclk, perform_sdioOe, perform_sdioOut, perform_op, perform_addr, perform_wdata,
    perform_sr, perform_rdataValid]
  refine ⟨?_, ?_, fun v hv => ?_, fun d hd => ?_, fun op ho => ?_, fun n hn => ?_, fun k hk => ?_⟩
  · rw [hncs, ncsLevel_advance hm]
  · rw [hsclk, sclkLevel_advance hm]
  · obtain hnone | ⟨hset, hconst⟩ | ⟨hsame, hkeep⟩ := oeLevel?_advance hm
    · rw [hnone] at hv; cases hv
    · rw [hset] at hv
      cases hv
      cases s.rt.sdioOe <;> simp [hconst]
    · rw [hkeep]
      exact hoe v (hsame ▸ hv)
  · obtain hnone | hlast := lastDrive?_advance hm
    · rw [hnone] at hd; cases hd
    · rw [hlast] at hd
      split at hd
      next hdrives => cases hd; rw [if_pos hdrives]
      next hdrives => rw [if_neg hdrives]; exact hdrive d hd
  · obtain hnone | hsame := opCode?_advance hm
    · rw [hnone] at ho; cases ho
    · exact hop op (hsame ▸ ho)
  · obtain hnone | rfl | ⟨rfl, hmore⟩ | ⟨hne, hsame⟩ := bitsShifted?_advance hm
    · rw [hnone] at hn; cases hn
    · exact Nat.two_pow_pos n
    · rw [hmore] at hn
      obtain ⟨n', hn', rfl⟩ := Option.map_eq_some_iff.1 hn
      exact toNat_shiftBit_lt (hbits n' hn') _
    · cases m with
      | sampleShift => exact absurd rfl hne
      | turnaround => exact Nat.two_pow_pos n
      | _ => exact hbits n (hsame ▸ hn)
  · obtain ⟨j, hj, hjk⟩ := advance_eq_read hk
    cases m with
    | releaseDeliver =>
      cases SeqPos.read.inj (hj.symm.trans (releaseDeliver_position hm rfl))
      exact absurd (hjk.symm.trans_lt k.isLt) (by decide)
    | _ => exact hvalid j hj

/-- Acceptance at the first micro-step keeps the invariant, if a READ's acceptance ends the validity of RDATA. -/
theorem present_consistent {s : State} (h : s.rt.consistent = true) {op : BitVec 2} {addr wdata : Byte} {q : SeqPos}
    {valid : Bool}
    (hq : op = opSync ∧ q = .sync 0 ∨ op = opRead ∧ q = .read 0 ∧ valid = false ∨ op = opWrite ∧ q = .write 0) :
    (s.present op addr wdata q valid).rt.consistent = true := by
  by_cases hb : s.busy = true
  · rw [present_of_busy hb]
    exact h
  have hidle := (busy_eq_false_iff s).1 (Bool.not_eq_true _ ▸ hb)
  obtain ⟨hncs, hsclk, -⟩ := (consistent_iff _).1 h
  rw [hidle] at hncs hsclk
  rw [present_of_idle hidle, State.latch_rt, consistent_iff]
  obtain ⟨rfl, rfl⟩ | ⟨rfl, rfl, rfl⟩ | ⟨rfl, rfl⟩ := hq
  · exact ⟨hncs, hsclk, nofun, nofun, fun _ ho => Option.some.inj ho, nofun, nofun⟩
  · exact ⟨hncs, hsclk, nofun, nofun, fun _ ho => Option.some.inj ho, nofun, fun _ _ => rfl⟩
  · exact ⟨hncs, hsclk, nofun, nofun, fun _ ho => Option.some.inj ho, nofun, nofun⟩

theorem exec_consistent {i : Instr} {s t : State} (h : s.rt.consistent = true) (he : exec i s = .next t) :
    t.rt.consistent = true := by
  cases i <;> cases he
  case sync => exact present_consistent h (.inl ⟨rfl, rfl⟩)
  case read => exact present_consistent h (.inr (.inl ⟨rfl, rfl, rfl⟩))
  case write => exact present_consistent h (.inr (.inr ⟨rfl, rfl⟩))
  case edgeA => exact h
  case edgeB => exact h
  case drain => exact h

/-- Settles O3: RT's micro-steps and the operations keep the invariant, and no other move touches the transport. -/
theorem transportStaysConsistent : Obligations.TransportStaysConsistent := by
  intro s t h hstep
  obtain ⟨l, n, u, rfl, ⟨-, rfl⟩ | ⟨i, -, he⟩ | ⟨k, -, he⟩ | ⟨-, rfl⟩⟩ := step_cases hstep
  · exact microStep_consistent h
  · exact exec_consistent (by exact h) he
  · obtain ⟨hrt, -⟩ := execHostStep_frame he
    rw [hrt]
    exact h
  · exact h

/-- Settles O2: the reset values are those of the idle position. -/
theorem resetTransportIsConsistent : Obligations.ResetTransportIsConsistent := rfl

/-- Settles O1: the fields of `State.reset`. -/
theorem resetLeavesTheStatedValues : Obligations.ResetLeavesTheStatedValues :=
  ⟨rfl, rfl, rfl, rfl, rfl, rfl, rfl, rfl, rfl, rfl, rfl⟩

/-! ### The validity of RDATA -/

theorem rdata_eq_none_iff (s : State) : s.rdata = none ↔ s.rt.rdataValid = false := by
  rw [State.rdata]
  split <;> simp_all

theorem rdata_congr {s t : State} (hvalid : t.rt.rdataValid = s.rt.rdataValid) (hsr : t.rt.sr = s.rt.sr) :
    t.rdata = s.rdata := by
  rw [State.rdata, State.rdata, hvalid, hsr]

/-- A micro-step makes RDATA valid at the end of a READ, with the signed reading of SR, and outside READ leaves RDATA as
it was. -/
theorem microStep_rdata (s : State) :
    (s.rt.seq = .read 77 ∧ s.microStep.rdata = some (s8 s.rt.sr))
      ∨ s.microStep.rt.rdataValid = s.rt.rdataValid ∧ ((∀ k, s.rt.seq ≠ .read k) → s.microStep.rt.sr = s.rt.sr) := by
  by_cases hidle : s.rt.seq = .idle
  · rw [microStep_of_idle hidle]
    exact .inr ⟨rfl, fun _ => rfl⟩
  obtain ⟨m, hm⟩ := microStep?_isSome hidle
  by_cases hdeliver : m = .releaseDeliver
  · subst hdeliver
    refine .inl ⟨releaseDeliver_position hm rfl, ?_⟩
    rw [microStep_of_some hm]
    rfl
  · refine .inr ⟨?_, fun hread => ?_⟩
    · rw [microStep_of_some hm, State.setSeq_rt, perform_rdataValid]
      cases m <;> first | rfl | exact absurd rfl hdeliver
    · by_contra hne
      obtain ⟨m', hm', hwrites⟩ := microStep_sr_ne hne
      obtain ⟨k, hk, -⟩ := position_of_srWrite hm' hwrites
      exact hread k hk

/-- An operation leaves RDATA as it was, but for the acceptance of a READ, which ends its validity. -/
theorem exec_rdata {i : Instr} {s t : State} (he : exec i s = .next t) :
    (((∃ addr wdata, i = .read addr wdata) ∧ s.busy = false) ∧ t.rdata = none ∧ t.rt.seq = .read 0)
      ∨ ¬((∃ addr wdata, i = .read addr wdata) ∧ s.busy = false) ∧ t.rdata = s.rdata := by
  cases hb : s.busy with
  | true =>
    have hrt := exec_rt_of_busy hb he
    exact .inr ⟨by simp, rdata_congr (by rw [hrt]) (by rw [hrt])⟩
  | false =>
    have hidle := (busy_eq_false_iff s).1 hb
    cases i with
    | read addr wdata =>
      rw [exec_read_of_idle hidle] at he
      cases he
      exact .inl ⟨⟨⟨addr, wdata, rfl⟩, rfl⟩, rfl, rfl⟩
    | sync addr wdata =>
      rw [exec_sync_of_idle hidle] at he
      cases he
      exact .inr ⟨by simp, rfl⟩
    | write addr wdata =>
      rw [exec_write_of_idle hidle] at he
      cases he
      exact .inr ⟨by simp, rfl⟩
    | edgeA => cases he; exact .inr ⟨by simp, rfl⟩
    | edgeB => cases he; exact .inr ⟨by simp, rfl⟩
    | drain => cases he; exact .inr ⟨by simp, rfl⟩

/-- Everything a step can do to RDATA. -/
theorem step_rdata {s t : State} (hc : s.rt.consistent = true) (h : step s = .next t) :
    (((∃ addr wdata, s.fetch.1 = .run (.read addr wdata)) ∧ s.busy = false) ∧ t.rdata = none ∧ t.rt.seq = .read 0)
      ∨ ¬((∃ addr wdata, s.fetch.1 = .run (.read addr wdata)) ∧ s.busy = false)
        ∧ (t.rdata = s.rdata
          ∨ s.rdata = none ∧ s.fetch.1 = .micro ∧ s.rt.seq = .read 77 ∧ t.rdata = some (s8 s.rt.sr)) := by
  obtain ⟨-, -, -, -, -, -, hvalid⟩ := (consistent_iff _).1 hc
  obtain ⟨l, n, u, hu, ⟨hf, rfl⟩ | ⟨i, hf, he⟩ | ⟨k, hf, he⟩ | ⟨hf, rfl⟩⟩ := step_cases h
  · have hrt : u.rt = s.rt := by rw [hu]
    refine .inr ⟨by simp [hf], ?_⟩
    obtain ⟨hq, hn⟩ | ⟨hv, hsr⟩ := microStep_rdata u
    · rw [hrt] at hq hn
      exact .inr ⟨(rdata_eq_none_iff s).2 (hvalid 77 hq), by rw [hf], hq, hn⟩
    · rw [hrt] at hv hsr
      refine .inl ?_
      by_cases hread : ∃ k, s.rt.seq = .read k
      · obtain ⟨k, hk⟩ := hread
        have hnone := hvalid k hk
        rw [(rdata_eq_none_iff _).2 hnone, rdata_eq_none_iff, hv, hnone]
      · exact rdata_congr hv (hsr fun k hk => hread ⟨k, hk⟩)
  · have hrdata : u.rdata = s.rdata := by rw [hu]; rfl
    have hbusy : u.busy = s.busy := by rw [hu]; rfl
    have hread : (∃ addr wdata, s.fetch.1 = .run (.read addr wdata)) ↔ ∃ addr wdata, i = .read addr wdata := by
      simp [hf]
    rw [hread, ← hbusy, ← hrdata]
    exact (exec_rdata he).imp_right fun ⟨hno, hsame⟩ => ⟨hno, .inl hsame⟩
  · obtain ⟨hrt, -⟩ := execHostStep_frame he
    refine .inr ⟨by simp [hf], .inl ?_⟩
    rw [State.rdata, hrt, hu]
    rfl
  · refine .inr ⟨by simp [hf], .inl ?_⟩
    rw [hu]
    rfl

/-- Settles O54: the cases of `step_rdata`. -/
theorem rdataIsValidFromOneReadToTheNext : Obligations.RdataIsValidFromOneReadToTheNext := by
  intro s t hc h
  obtain ⟨hread, hnone, hseq⟩ | ⟨hread, hsame | ⟨hnone, hf, hq, hnew⟩⟩ := step_rdata hc h
  · exact ⟨fun n _ => ⟨fun _ => ⟨hnone, hseq⟩, fun hno => absurd hread hno⟩,
      fun n _ hn => absurd (hnone.symm.trans hn) nofun⟩
  · exact ⟨fun n hn => ⟨fun hyes => absurd hyes hread, fun _ => hsame.trans hn⟩,
      fun n h0 hn => absurd (h0.symm.trans (hsame.symm.trans hn)) nofun⟩
  · exact ⟨fun n hn => absurd (hnone.symm.trans hn) nofun,
      fun n _ hn => ⟨hf, hq, (Option.some.inj (hnew.symm.trans hn)).symm⟩⟩

end Sys2Proof.Machine
end

section
/-! PROOFS. What no rule reads: the unspecified registers where they are not used, and the ignored bits of a command
(10_state.md R39; 30_encoding.md R105): settles O56, O34 and O27. -/

namespace Sys2Proof.Machine

/-! ### States that differ in the unspecified registers -/

/-- The state with other values in the registers whose reset value the spec leaves unspecified (10_state.md R36). -/
def State.withHidden (s : State) (op : BitVec 2) (addr wdata sr : Byte) : State :=
  { s with rt := { s.rt with op := op, addr := addr, wdata := wdata, sr := sr } }

theorem eq_withHidden_of_shown {s t : State} (h : s.shown = t.shown) :
    t = s.withHidden t.rt.op t.rt.addr t.rt.wdata t.rt.sr := by
  have hback : t = t.shown.withHidden t.rt.op t.rt.addr t.rt.wdata t.rt.sr := rfl
  rw [← h] at hback
  exact hback

theorem alike_refl (s : State) : s.alike s :=
  ⟨rfl, fun _ => ⟨rfl, rfl, rfl⟩, fun _ => rfl, fun _ _ _ => rfl⟩

theorem alike_setSr {s : State} {v : Byte} (hvalid : s.rt.rdataValid = true → s.rt.sr = v)
    (hread : ∀ k, s.rt.seq = .read k → 44 ≤ k.val → s.rt.sr = v) : s.alike (s.setSr v) :=
  ⟨rfl, fun _ => ⟨rfl, rfl, rfl⟩, hvalid, hread⟩

section
variable {s : State} {op : BitVec 2} {addr wdata sr : Byte} (h : s.alike (s.withHidden op addr wdata sr))
include h

/-- The relation is about the transport alone. -/
theorem alike_of_rt_eq {u : State} (hrt : u.rt = s.rt) : u.alike (u.withHidden op addr wdata sr) := by
  obtain ⟨-, hlatch, hvalid, hread⟩ := h
  refine ⟨rfl, fun hb => ?_, fun hv => ?_, fun k hk hle => ?_⟩
  · rw [hrt]
    exact hlatch (by rw [State.busy, ← hrt]; exact hb)
  · rw [hrt]
    exact hvalid (hrt ▸ hv)
  · rw [hrt]
    exact hread k (hrt ▸ hk) hle

/-- While BUSY the two states differ in SR at most. -/
theorem withHidden_of_busy (hb : s.busy = true) : s.withHidden op addr wdata sr = s.setSr sr := by
  obtain ⟨-, hlatch, -⟩ := h
  obtain ⟨hop, haddr, hwdata⟩ := hlatch hb
  have hsame : s.withHidden s.rt.op s.rt.addr s.rt.wdata sr = s.setSr sr := rfl
  rw [hop, haddr, hwdata] at hsame
  exact hsame

end

/-! ### Micro-steps -/

/-- The micro-steps that read or write SR. -/
def MicroStep.usesSr : MicroStep → Bool
  | .turnaround | .sampleShift | .releaseDeliver => true
  | _ => false

theorem perform_setSr_of_not_usesSr {m : MicroStep} (h : m.usesSr = false) (s : State) (v : Byte) :
    (s.setSr v).perform m = (s.perform m).setSr v ∧ (s.perform m).rt.sr = s.rt.sr
      ∧ (s.perform m).rt.rdataValid = s.rt.rdataValid := by
  cases m <;> first | exact ⟨rfl, rfl, rfl⟩ | cases h

/-- Each use of SR is the turnaround, which writes it only, or stands after it. -/
theorem usesSr_position {q : SeqPos} {m : MicroStep} (hm : q.microStep? = some m) (h : m.usesSr = true) :
    m = .turnaround ∨ ∃ k, q = .read k ∧ 44 ≤ k.val := by
  cases m with
  | turnaround => exact .inl rfl
  | sampleShift =>
    obtain ⟨k, hk, hpos⟩ := position_of_srWrite hm (.inr rfl)
    obtain hturn | ⟨j, hj⟩ := hpos
    · rw [hk, show k = 43 from Fin.ext hturn] at hm
      cases hm
    · exact .inr ⟨k, hk, by omega⟩
  | releaseDeliver => exact .inr ⟨77, releaseDeliver_position hm rfl, by decide⟩
  | _ => cases h

theorem microStep_setSr_alike {s : State} {v : Byte} (hvalid : s.rt.rdataValid = true → s.rt.sr = v)
    (hread : ∀ k, s.rt.seq = .read k → 44 ≤ k.val → s.rt.sr = v) :
    s.microStep.alike (s.setSr v).microStep := by
  by_cases hidle : s.rt.seq = .idle
  · have hidle' : (s.setSr v).rt.seq = .idle := hidle
    rw [microStep_of_idle hidle, microStep_of_idle hidle']
    exact alike_setSr hvalid hread
  obtain ⟨m, hm⟩ := microStep?_isSome hidle
  have hm' : (s.setSr v).rt.seq.microStep? = some m := hm
  rw [microStep_of_some hm, microStep_of_some hm']
  cases huses : m.usesSr with
  | true =>
    obtain rfl | ⟨k, hk, hle⟩ := usesSr_position hm huses
    · exact alike_refl _
    · have hsame : s.setSr v = s := by rw [← hread k hk hle]; rfl
      rw [hsame]
      exact alike_refl _
  | false =>
    obtain ⟨hperform, hsr, hv⟩ := perform_setSr_of_not_usesSr huses s v
    rw [hperform]
    refine alike_setSr (s := (s.perform m).setSeq s.rt.seq.advance) (fun hvalid' => ?_) (fun k hk hle => ?_)
    · exact hsr.trans (hvalid (hv.symm.trans hvalid'))
    · obtain ⟨j, hj, hjk⟩ := advance_eq_read hk
      have hne : j.val ≠ 43 := fun h43 => by
        rw [hj, show j = 43 from Fin.ext h43] at hm
        cases hm
        cases huses
      exact hsr.trans (hread j hj (by omega))

theorem microStep_alike {s : State} {op : BitVec 2} {addr wdata sr : Byte}
    (h : s.alike (s.withHidden op addr wdata sr)) :
    s.microStep.alike (s.withHidden op addr wdata sr).microStep := by
  cases hb : s.busy with
  | true =>
    rw [withHidden_of_busy h hb]
    obtain ⟨-, -, hvalid, hread⟩ := h
    exact microStep_setSr_alike hvalid hread
  | false =>
    have hidle := (busy_eq_false_iff s).1 hb
    have hidle' : (s.withHidden op addr wdata sr).rt.seq = .idle := hidle
    rw [microStep_of_idle hidle, microStep_of_idle hidle']
    exact h

/-! ### Operations and companion steps -/

theorem present_alike {s : State} {op : BitVec 2} {addr wdata sr : Byte}
    (h : s.alike (s.withHidden op addr wdata sr)) {op' : BitVec 2} {addr' wdata' : Byte} {q : SeqPos} {valid : Bool}
    (hvalid : valid = true → s.rt.rdataValid = true) (hq : ∀ k, q = .read k → k.val < 44) :
    (s.present op' addr' wdata' q valid).alike ((s.withHidden op addr wdata sr).present op' addr' wdata' q valid) := by
  cases hb : s.busy with
  | true =>
    have hb' : (s.withHidden op addr wdata sr).busy = true := hb
    rw [present_of_busy hb, present_of_busy hb']
    exact h
  | false =>
    have hidle := (busy_eq_false_iff s).1 hb
    have hidle' : (s.withHidden op addr wdata sr).rt.seq = .idle := hidle
    obtain ⟨-, -, hsr, -⟩ := h
    rw [present_of_idle hidle, present_of_idle hidle']
    exact alike_setSr (s := s.latch op' addr' wdata' q valid) (fun hv => hsr (hvalid hv))
      (fun k hk hle => absurd (hq k hk) (by omega))

theorem exec_alike {s : State} {op : BitVec 2} {addr wdata sr : Byte} (h : s.alike (s.withHidden op addr wdata sr))
    {i : Instr} {s' : State} (he : exec i s = .next s') :
    ∃ t', exec i (s.withHidden op addr wdata sr) = .next t' ∧ s'.alike t' := by
  cases i <;> cases he <;> refine ⟨_, rfl, ?_⟩
  case sync => exact present_alike h id nofun
  case read => exact present_alike h nofun fun k hk => by cases hk; decide
  case write => exact present_alike h id nofun
  case edgeA => exact alike_of_rt_eq h rfl
  case edgeB => exact alike_of_rt_eq h rfl
  case drain => exact alike_of_rt_eq h rfl

theorem execHostStep_alike {s : State} {op : BitVec 2} {addr wdata sr : Byte}
    (h : s.alike (s.withHidden op addr wdata sr)) {k : HostStep} {s' : State} (he : execHostStep k s = .next s') :
    ∃ t', execHostStep k (s.withHidden op addr wdata sr) = .next t' ∧ s'.alike t' := by
  obtain ⟨hidle, hcases⟩ := execHostStep_cases he
  have hb : (s.withHidden op addr wdata sr).busy = false := (busy_eq_false_iff _).2 hidle
  have hsr : s.rt.rdataValid = true → s.rt.sr = sr := by
    obtain ⟨-, -, hvalid, -⟩ := h
    exact hvalid
  obtain ⟨rfl, hv, rfl⟩ | ⟨rfl, hv, rfl⟩ | ⟨rfl, hv, rfl⟩ | ⟨rfl, hv, rfl⟩ | ⟨rfl, rfl⟩ := hcases
  · refine ⟨_, execHostStep_addY_of_valid hb hv, ?_⟩
    rw [hsr hv]
    exact alike_of_rt_eq h rfl
  · exact ⟨_, execHostStep_addY_of_not_valid hb hv, alike_of_rt_eq h rfl⟩
  · refine ⟨_, execHostStep_subX_of_valid hb hv, ?_⟩
    rw [hsr hv]
    exact alike_of_rt_eq h rfl
  · exact ⟨_, execHostStep_subX_of_not_valid hb hv, alike_of_rt_eq h rfl⟩
  · exact ⟨_, execHostStep_mdrain hb, alike_of_rt_eq h rfl⟩

/-! ### Steps and runs -/

/-- Fetching reads the inputs and the count of order choices, never the transport. -/
theorem fetch_withHidden (s : State) (op : BitVec 2) (addr wdata sr : Byte) :
    (s.withHidden op addr wdata sr).fetch = (s.fetch.1, s.fetch.2.withHidden op addr wdata sr) := by
  have henv : (s.withHidden op addr wdata sr).env = s.env := rfl
  simp only [State.fetch, State.fetchPorts, henv]
  split
  · rfl
  · rfl
  · split <;> rfl
  · split <;> rfl
  · rfl

section
variable {s u : State}

theorem step_of_micro (h : s.fetch = (.micro, u)) : step s = .next u.microStep := by simp only [step, h]
theorem step_of_run {i : Instr} (h : s.fetch = (.run i, u)) : step s = exec i u := by simp only [step, h]
theorem step_of_fetch_host {k : HostStep} (h : s.fetch = (.host k, u)) : step s = execHostStep k u := by
  simp only [step, h]
theorem step_of_nothing (h : s.fetch = (.nothing, u)) : step s = .next u := by simp only [step, h]

end

theorem step_alike {s : State} {op : BitVec 2} {addr wdata sr : Byte} (h : s.alike (s.withHidden op addr wdata sr))
    {s' : State} (hs : step s = .next s') :
    ∃ t', step (s.withHidden op addr wdata sr) = .next t' ∧ s'.alike t' := by
  have hfetch := fetch_withHidden s op addr wdata sr
  obtain ⟨l, n, u, hu, hcases⟩ := step_cases hs
  have halike : u.alike (u.withHidden op addr wdata sr) := alike_of_rt_eq h (by rw [hu])
  obtain ⟨hf, rfl⟩ | ⟨i, hf, he⟩ | ⟨k, hf, he⟩ | ⟨hf, rfl⟩ := hcases <;> rw [hf] at hfetch
  · exact ⟨_, step_of_micro hfetch, microStep_alike halike⟩
  · rw [step_of_run hfetch]
    exact exec_alike halike he
  · rw [step_of_fetch_host hfetch]
    exact execHostStep_alike halike he
  · exact ⟨_, step_of_nothing hfetch, halike⟩

/-- Settles O56: `step_alike` where the step answers a state, and the same refusal where it does not. -/
theorem stepsKeepStatesAlike : Obligations.StepsKeepStatesAlike := by
  intro s t h
  obtain ⟨hshown, -⟩ := id h
  rw [eq_withHidden_of_shown hshown] at h ⊢
  refine ⟨fun s' hs => step_alike h hs, fun r hr => ?_⟩
  obtain ⟨k, rest, hin, hb, rfl⟩ := step_refused hr
  exact (step_of_host (by exact hin)).trans (execHostStep_of_busy (by exact hb) k)

/-- States that are alike show the same along any run. -/
theorem sameShown_runSteps {s t : State} (h : s.alike t) (n : Nat) : sameShown (runSteps n s) (runSteps n t) := by
  induction n generalizing s t with
  | zero => exact h.1
  | succ n ih =>
    obtain ⟨hnext, hrefused⟩ := stepsKeepStatesAlike s t h
    cases hs : step s with
    | next s' =>
      obtain ⟨t', ht, halike⟩ := hnext s' hs
      rw [runSteps_succ hs, runSteps_succ ht]
      exact ih halike
    | fault f => cases f
    | refused r =>
      rw [runSteps_succ_refused hs, runSteps_succ_refused (hrefused r hs)]
      exact rfl

/-- Settles O34: an idle state with no valid RDATA is alike with any values in the four registers. -/
theorem unspecifiedRegistersNeverShow : Obligations.UnspecifiedRegistersNeverShow := by
  intro s op addr wdata sr n hidle hvalid
  have halike : s.alike (s.withHidden op addr wdata sr) := by
    refine ⟨rfl, fun hb => ?_, fun hv => ?_, fun k hk => ?_⟩
    · rw [(busy_eq_false_iff s).2 hidle] at hb
      cases hb
    · rw [hvalid] at hv
      cases hv
    · rw [hidle] at hk
      cases hk
  exact sameShown_runSteps halike n

/-! ### The bits a command ignores -/

/-- The state with other latched operands. -/
def State.withOperands (s : State) (addr wdata : Byte) : State :=
  { s with rt := { s.rt with addr := addr, wdata := wdata } }

theorem perform_withOperands {s : State} {m : MicroStep} {addr wdata : Byte}
    (haddr : ∀ i, m = .driveAddr i → addr = s.rt.addr) (hwdata : ∀ i, m = .driveData i → wdata = s.rt.wdata) :
    (s.withOperands addr wdata).perform m = (s.perform m).withOperands addr wdata := by
  cases m with
  | driveAddr i => rw [haddr i rfl]; rfl
  | driveData i => rw [hwdata i rfl]; rfl
  | _ => rfl

/-- Operands that no micro-step left drives onto the wire may be exchanged at any point of the run. -/
theorem microSteps_withOperands {s : State} {addr wdata : Byte}
    (haddr : ∀ i, .driveAddr i ∈ s.rt.seq.todo → addr = s.rt.addr)
    (hwdata : ∀ i, .driveData i ∈ s.rt.seq.todo → wdata = s.rt.wdata) (n : Nat) :
    (s.withOperands addr wdata).microSteps n = (s.microSteps n).withOperands addr wdata := by
  induction n generalizing s with
  | zero => rfl
  | succ n ih =>
    have hstep : (s.withOperands addr wdata).microStep = s.microStep.withOperands addr wdata := by
      by_cases hidle : s.rt.seq = .idle
      · have hidle' : (s.withOperands addr wdata).rt.seq = .idle := hidle
        rw [microStep_of_idle hidle, microStep_of_idle hidle']
      · obtain ⟨m, hm⟩ := microStep?_isSome hidle
        have hm' : (s.withOperands addr wdata).rt.seq.microStep? = some m := hm
        have hmem : m ∈ s.rt.seq.todo := by rw [todo_eq_cons hm]; exact List.mem_cons_self
        rw [microStep_of_some hm, microStep_of_some hm',
          perform_withOperands (fun i hi => haddr i (hi ▸ hmem)) (fun i hi => hwdata i (hi ▸ hmem))]
        rfl
    obtain ⟨-, -, -, haddr', hwdata', -⟩ := microStep_frame s
    have htodo {m : MicroStep} (h : m ∈ s.microStep.rt.seq.todo) : m ∈ s.rt.seq.todo := by
      rw [microStep_seq, todo_advance] at h
      exact List.mem_of_mem_tail h
    rw [State.microSteps, hstep, ih (fun i hi => haddr'.symm ▸ haddr i (htodo hi))
      (fun i hi => hwdata'.symm ▸ hwdata i (htodo hi)), State.microSteps]

theorem microSteps_addr (s : State) (n : Nat) : (s.microSteps n).rt.addr = s.rt.addr := by
  induction n with
  | zero => rfl
  | succ n ih =>
    obtain ⟨-, -, -, haddr, -⟩ := microStep_frame (s.microSteps n)
    rw [microSteps_succ, haddr, ih]

theorem withOperands_of_addr {s : State} {addr wdata : Byte} (h : s.rt.addr = addr) :
    s.withOperands addr wdata = { s with rt := { s.rt with wdata := wdata } } := by
  rw [← h]; rfl

theorem driveData_notMem_readSteps : ∀ i, MicroStep.driveData i ∉ readSteps := by decide

theorem drive_notMem_syncSteps : ∀ i, MicroStep.driveAddr i ∉ syncSteps ∧ MicroStep.driveData i ∉ syncSteps := by decide

/-- Settles O27: READ's list drives no bit of WDATA, and SYNC's list drives none at all. -/
theorem ignoredCommandBitsHaveNoEffect : Obligations.IgnoredCommandBitsHaveNoEffect := by
  intro s addr addr' wdata wdata' n
  refine ⟨?read, fun hb => ?sync⟩
  case read =>
    cases hb : s.busy with
    | true => exact ⟨s, s, congrArg _ (present_of_busy hb ..), congrArg _ (present_of_busy hb ..), rfl⟩
    | false =>
      have hidle := (busy_eq_false_iff s).1 hb
      refine ⟨_, _, exec_read_of_idle hidle addr wdata, exec_read_of_idle hidle addr wdata', ?_⟩
      have hrun := microSteps_withOperands (s := s.latch opRead addr wdata (.read 0) false) (addr := addr)
        (wdata := wdata') (fun _ _ => rfl) (fun i hi => absurd hi (driveData_notMem_readSteps i)) n
      have hsame := (congrArg (fun u => u.withOperands addr 0) hrun).symm
      exact (withOperands_of_addr (microSteps_addr _ n)).symm.trans
        (hsame.trans (withOperands_of_addr (microSteps_addr (s.latch opRead addr wdata' (.read 0) false) n)))
  case sync =>
    have hidle := (busy_eq_false_iff s).1 hb
    refine ⟨_, _, exec_sync_of_idle hidle addr wdata, exec_sync_of_idle hidle addr' wdata', ?_⟩
    have hrun := microSteps_withOperands (s := s.latch opSync addr wdata (.sync 0) s.rt.rdataValid) (addr := addr')
      (wdata := wdata') (fun i hi => absurd hi (drive_notMem_syncSteps i).1)
      (fun i hi => absurd hi (drive_notMem_syncSteps i).2) n
    exact (congrArg (fun u => u.withOperands 0 0) hrun).symm

end Sys2Proof.Machine
end
